-- ==== Sys2Proof/Word.lean ====
section
/-! DEFINITION. The plain word types of the 4120 and the arithmetic the manual names: octets, 16-bit words, saturating
counts, lengths in millimetres as natural numbers and web positions as integers (00_scope.md, Units and Positions). -/

namespace Sys2Proof

/-- One octet of a frame (9.1). -/
abbrev Byte := BitVec 8

/-- A 16-bit field: a status word, an offset, a delta (9.7). -/
abbrev Word16 := BitVec 16

/-- A mark id, 0 to 65,535, counted modulo 65,536 (R20). -/
abbrev MarkId := BitVec 16

/-- A web position in millimetres (R2): signed; the manual's 48-bit range is kept by `Machine.webPos`. -/
abbrev WebPos := Int

/-- The largest line count, 2^48 − 1 (R1). -/
abbrev lineCountMax : Nat := 2 ^ 48 - 1

/-- The largest value of the part's counters, 2^32 − 1 (R11, R108, R155, R184, R187). -/
abbrev counterMax : Nat := 2 ^ 32 - 1

/-- The largest uncertainty of a mark (R11, R32). -/
abbrev uncertaintyMax : Nat := 65535

/-- The largest length of a closed window (Table 2-1, R30). -/
abbrev windowLengthMax : Nat := 16777215

/-- A count raised by `k` that stays at `limit`. -/
def satAdd (limit n k : Nat) : Nat := min limit (n + k)

/-- A part counter raised by `k`, saturating at 2^32 − 1. -/
def bump (n k : Nat) : Nat := satAdd counterMax n k

/-- The quotient rounded up, as R49 and R50 use it. -/
def ceilDiv (a b : Nat) : Nat := (a + b - 1) / b

/-- A value of a field the manual enumerates, or a code outside the enumeration. -/
inductive Coded (α : Type) where
  | named (a : α)
  | beyond (code : Nat)
deriving DecidableEq, Repr, Inhabited

end Sys2Proof
end

