-- ==== Sys2Proof/Syntax.lean ====
section
/-! DEFINITION. The commands of the 4120: the names the manual enumerates, the bodies of its requests by their fields, and
`Instr`, one constructor per row of spec/opcode_table.json. -/

namespace Sys2Proof

/-- An order's identity: order number (32-bit) and make-up index 0–15 (R43). -/
structure OrderId where
  number : Nat
  makeUp : Nat
deriving DecidableEq, Repr, Inhabited

/-- The two knife stations, A upstream and B downstream (R71). -/
inductive KnifeId where
  | a | b
deriving DecidableEq, Repr, Inhabited

/-- Window causes, in the order of Table 2-3. -/
inductive WindowCause where
  | glueStarve | heatDeviation | operator | gradeMismatch | lateSet | knifeFault | transition
deriving DecidableEq, Repr, Inhabited

/-- Stop holder causes (Table 1-3). -/
inductive StopCause where
  | webOut | tripBand | tripCutout | directiveOverflow | knifeFault | stackerFault
deriving DecidableEq, Repr, Inhabited

/-- Sequencer modes (R60). -/
inductive Mode where
  | hold | single | auto
deriving DecidableEq, Repr, Inhabited

/-- Trip levels of a zone (R156). -/
inductive Level where
  | low | high | cutout
deriving DecidableEq, Repr, Inhabited

/-- Roles of the station table (Table 9-1); `stand k` is STANDk. -/
inductive Role where
  | encoder | drive | supervisor | panel
  | stand (k : Nat)
  | zone | knifeA | knifeB | cutoff | gate | stacker
deriving DecidableEq, Repr, Inhabited

/-- What a stand feeds (Table 6-1). -/
inductive PaperRole where
  | liner | medium
deriving DecidableEq, Repr, Inhabited

/-- Zone kinds (Table 7-1). -/
inductive ZoneKind where
  | preheat | glue | plate
deriving DecidableEq, Repr, Inhabited

/-- The short policy of an order (Table 3-1). -/
inductive ShortPolicy where
  | accept | makeUp
deriving DecidableEq, Repr, Inhabited

/-- The two arms of a stand (R111). -/
inductive Arm where
  | active | standby
deriving DecidableEq, Repr, Inhabited

/-- The items of Table 10-4, in its order. -/
inductive Item where
  | managementStatus | trigger | lineStatus | lineGeometry | mapStatus | mapEntry | rejectSpan | order | sequencerStatus
  | knifeStatus | cutStatus | stackerStatus | standConfiguration | stand | grade | zone | profile | tripStatus
  | tripCounters | station | ringStatus | fault
deriving DecidableEq, Repr, Inhabited

/-- The line geometry record (Table 1-1). -/
structure Geometry where
  knifeAOffset : Nat
  knifeBOffset : Nat
  cutoffOffset : Nat
  gateOffset : Nat
  dPre : Nat
  maxDelta : Nat
  tallyInterval : Nat
  warnLimit : Nat
  mergeGap : Nat
  knifeLead : Nat
  cutoffLead : Nat
  gateDwell : Nat
  shortTolerance : Nat
  deckCapacity : Nat
  transferTimeout : Nat
  minLane : Nat
  minTrim : Nat
deriving DecidableEq, Repr, Inhabited

/-- An entry of the reject span table (R22). -/
structure Span where
  lead : Nat
  trail : Nat
deriving DecidableEq, Repr, Inhabited

/-- One lane of a layout: its width and its score positions from the lane's left edge (Table 3-1). -/
structure Lane where
  width : Nat
  scores : List Nat
deriving DecidableEq, Repr, Inhabited

/-- A layout: the LAYOUT group of an order, and what SET_LAYOUT carries (R44, R72). -/
structure Layout where
  boardWidth : Nat
  lanes : List Lane
  leftTrim : Nat
  rightTrim : Nat
deriving DecidableEq, Repr, Inhabited

/-- The fields of the groups of an order as a request carries them (Table 3-1). -/
structure OrderFields where
  target : Nat
  overrun : Nat
  layout : Layout
  cutLength : Nat
  grade : Nat
  stackHeight : Nat
  policy : Coded ShortPolicy
  holdAfter : Bool
deriving DecidableEq, Repr, Inhabited

/-- A roll record without its remaining field, as ROLL_PREPARE carries it (R112). -/
structure RollFields where
  rollId : Nat
  paper : Nat
  width : Nat
  length : Nat
deriving DecidableEq, Repr, Inhabited

/-- A loaded grade record: five paper codes or absent, sixteen setpoints or KEEP (R136). -/
structure Grade where
  papers : List (Option Nat)
  setpoints : List (Option Int)
deriving DecidableEq, Repr, Inhabited

/-- One stage of a ramp profile (R139). -/
structure Stage where
  length : Nat
  share : Nat
deriving DecidableEq, Repr, Inhabited

/-- A ramp profile record (R139). -/
structure Profile where
  stages : List Stage
  markTransition : Bool
deriving DecidableEq, Repr, Inhabited

/-- A trip level's action set: a subset of REPORT, WINDOW, HOLD and STOP (Table 7-1). -/
structure ActionSet where
  report : Bool
  window : Bool
  hold : Bool
  stop : Bool
deriving DecidableEq, Repr, Inhabited

/-- A set of trip levels, as LATCH_CLEAR names it; `foreign` says that the set names a level outside the three (R161). -/
structure LevelSet where
  low : Bool
  high : Bool
  cutout : Bool
  foreign : Bool
deriving DecidableEq, Repr, Inhabited

/-- The fields of a stand's MOUNT and SPLICE groups as a request carries them (Table 6-1). -/
structure StandFields where
  role : Coded PaperRole
  takeup : Nat
  effOffset : Nat
  spliceLead : Nat
  runOut : Nat
  maxSpeed : Nat
  accelTimeout : Nat
  pasteTimeout : Nat
deriving DecidableEq, Repr, Inhabited

/-- The fields of a zone's four groups as a request carries them (Table 7-1); `foreignAction` says that an action set names
an action outside the four. -/
structure ZoneFields where
  kind : Coded ZoneKind
  offset : Nat
  station : Nat
  channel : Nat
  rampLead : Nat
  profile : Nat
  standbyDelay : Nat
  standbySetpoint : Int
  bandLow : Int
  bandHigh : Int
  cutout : Int
  hysteresis : Nat
  lowActions : ActionSet
  highActions : ActionSet
  cutoutActions : ActionSet
  foreignAction : Bool
deriving DecidableEq, Repr, Inhabited

/-- A station table entry as a WRITE or LOAD carries it: its groups' fields, or the empty form (R174). -/
inductive StationForm where
  | empty
  | fields (address : Nat) (role : Coded Role) (watch : Word16)
deriving DecidableEq, Repr, Inhabited

/-- The trigger a TRIGGER_SET names (Table 10-5). -/
inductive TriggerForm where
  | lineAt (count : Nat)
  | feedStart (order : OrderId)
  | orderClosed (order : OrderId)
  | spliceDone (stand : Nat)
  | beyond (code : Nat)
deriving DecidableEq, Repr, Inhabited

/-- A held request's code and body (Table 10-5); `other` is a request of any code outside the five. -/
inductive HeldBody where
  | mode (m : Coded Mode)
  | spliceNow (stand : Nat)
  | mark (w : WebPos) (length : Nat)
  | orderFront (order : OrderId)
  | latchClear (zone : Nat) (levels : LevelSet)
  | other (code : Nat)
deriving DecidableEq, Repr, Inhabited

/-- What TRIGGER_CLEAR names: one entry index or one group tag (R200). -/
inductive ClearName where
  | index (i : Nat)
  | tag (t : Nat)
deriving DecidableEq, Repr, Inhabited

/-- The requests of Table 10-1 by their fields; WRITE and LOAD by item. For a WRITE, a LOAD or an ORDER_AMEND the values of
groups that the group mask does not name are not on the wire and are not read. -/
inductive Body where
  | identify
  | read (item : Coded Item) (index : Nat)
  | writePlain (item : Coded Item) (index : Nat)
  | writeLineGeometry (g : Geometry)
  | writeRejectSpan (index : Nat) (v : Span)
  | writeStandConfiguration (count : Nat)
  | writeStand (stand : Nat) (v : StandFields)
  | writeGrade (index : Nat) (v : Option Grade)
  | writeZone (zone : Nat) (v : ZoneFields)
  | writeProfile (index : Nat) (v : Profile)
  | writeStation (index : Nat) (v : StationForm)
  | loadPlain (table : Coded Item) (first count : Nat)
  | loadRejectSpan (first : Nat) (vs : List Span)
  | loadGrade (first : Nat) (vs : List (Option Grade))
  | loadZone (first : Nat) (vs : List ZoneFields)
  | loadProfile (first : Nat) (vs : List Profile)
  | loadStation (first : Nat) (vs : List StationForm)
  | start
  | restart
  | mode (m : Coded Mode)
  | orderAppend (number : Nat) (v : OrderFields)
  | orderAmend (order : OrderId) (v : OrderFields)
  | orderCancel (order : OrderId)
  | orderFront (order : OrderId)
  | rollPrepare (stand : Nat) (arm : Coded Arm) (roll : RollFields)
  | rollWithdraw (stand : Nat)
  | spliceNow (stand : Nat)
  | spliceAbort (stand : Nat)
  | latchClear (zone : Nat) (levels : LevelSet)
  | clearStop (cause : Coded StopCause)
  | mark (w : WebPos) (length : Nat)
  | triggerSet (trigger : TriggerForm) (tag : Nat) (heldTag : Byte) (held : HeldBody)
  | triggerClear (name : ClearName)
deriving DecidableEq, Repr, Inhabited

/-- A request as it reaches the Management Engine behind its header: a body that fits its code, or one whose length does not
match the code named (R188, step 4). -/
inductive RequestForm where
  | body (b : Body)
  | wrongSize (code : Nat)
deriving DecidableEq, Repr, Inhabited

/-- A command's body: fields whose length matches the request's code, or a body of another length (R188, step 4). -/
inductive Sized (α : Type) where
  | fields (a : α)
  | wrongSize
deriving DecidableEq, Repr, Inhabited

/-- The frame header of an observed frame: target, origin and sequence octets; its kind and payload length are those of the
command (Table 9-2). -/
structure FrameHeader where
  target : Byte
  origin : Byte
  sequence : Byte
deriving DecidableEq, Repr, Inhabited

/-- The frame header and the request header of a REQUEST frame (Tables 9-2 and 9-5). -/
structure ReqHeader where
  target : Byte
  origin : Byte
  sequence : Byte
  tag : Byte
  flags : Byte
  mask : Byte
deriving DecidableEq, Repr, Inhabited

/-- The FORCE flag: bit 0 of the request's flags octet (Table 9-5). -/
def ReqHeader.force (h : ReqHeader) : Bool := h.flags.getLsbD 0

/-- A frame at the receive port: its octets as received, or a REQUEST frame that passes its check given by its fields. -/
inductive RxFrame where
  | octets (os : List Byte)
  | request (h : ReqHeader) (r : RequestForm)
deriving DecidableEq, Repr, Inhabited

/-- The commands of the block: one constructor per row of spec/opcode_table.json. -/
inductive Instr where
  | resetInput (straps : BitVec 6)
  | receiveFrame (f : RxFrame)
  | tally (h : FrameHeader) (delta : Word16) (flags : Byte)
  | reading (h : FrameHeader) (channel : Byte) (value : Word16)
  | stateFrame (h : FrameHeader) (word offset : Word16)
  | cut (h : FrameHeader) (offset : Word16) (flags : Byte)
  | transmit
  | accelTimeout (stand : Nat)
  | pasteTimeout (stand : Nat)
  | transferTimeout
  | standbyTimeout (zone : Nat)
  | identify (h : ReqHeader) (b : Sized Unit)
  | read (h : ReqHeader) (b : Sized (Coded Item × Nat))
  | readFault (h : ReqHeader) (b : Sized Nat)
  | write (h : ReqHeader) (b : Sized (Coded Item × Nat))
  | writeLineGeometry (h : ReqHeader) (b : Sized Geometry)
  | writeRejectSpan (h : ReqHeader) (b : Sized (Nat × Span))
  | writeStandConfiguration (h : ReqHeader) (b : Sized Nat)
  | writeStand (h : ReqHeader) (b : Sized (Nat × StandFields))
  | writeGrade (h : ReqHeader) (b : Sized (Nat × Option Grade))
  | writeZone (h : ReqHeader) (b : Sized (Nat × ZoneFields))
  | writeProfile (h : ReqHeader) (b : Sized (Nat × Profile))
  | writeStation (h : ReqHeader) (b : Sized (Nat × StationForm))
  | loadRejectSpan (h : ReqHeader) (b : Sized (Nat × List Span))
  | loadGrade (h : ReqHeader) (b : Sized (Nat × List (Option Grade)))
  | loadZone (h : ReqHeader) (b : Sized (Nat × List ZoneFields))
  | loadProfile (h : ReqHeader) (b : Sized (Nat × List Profile))
  | loadStation (h : ReqHeader) (b : Sized (Nat × List StationForm))
  | start (h : ReqHeader) (b : Sized Unit)
  | restart (h : ReqHeader) (b : Sized Unit)
  | modeHold (h : ReqHeader) (b : Sized Unit)
  | modeSingle (h : ReqHeader) (b : Sized Unit)
  | modeAuto (h : ReqHeader) (b : Sized Unit)
  | orderAppend (h : ReqHeader) (b : Sized (Nat × OrderFields))
  | orderAmend (h : ReqHeader) (b : Sized (OrderId × OrderFields))
  | orderCancel (h : ReqHeader) (b : Sized OrderId)
  | orderFront (h : ReqHeader) (b : Sized OrderId)
  | rollPrepare (h : ReqHeader) (b : Sized (Nat × Coded Arm × RollFields))
  | rollWithdraw (h : ReqHeader) (b : Sized Nat)
  | spliceNow (h : ReqHeader) (b : Sized Nat)
  | spliceAbort (h : ReqHeader) (b : Sized Nat)
  | latchClear (h : ReqHeader) (b : Sized (Nat × LevelSet))
  | clearStop (h : ReqHeader) (b : Sized (Coded StopCause))
  | mark (h : ReqHeader) (b : Sized (WebPos × Nat))
  | triggerSet (h : ReqHeader) (b : Sized (TriggerForm × Nat × Byte × HeldBody))
  | triggerClear (h : ReqHeader) (b : Sized ClearName)
  | unknownRequest (h : FrameHeader) (payload : List Byte)
  | load (h : ReqHeader) (b : Sized (Coded Item × Nat × Nat))
deriving DecidableEq, Repr, Inhabited

/-- The request code of a body (Table 10-1). -/
def Body.code : Body → Nat
  | .identify => 1
  | .read _ _ => 2
  | .writePlain _ _ => 3
  | .writeLineGeometry _ => 3
  | .writeRejectSpan _ _ => 3
  | .writeStandConfiguration _ => 3
  | .writeStand _ _ => 3
  | .writeGrade _ _ => 3
  | .writeZone _ _ => 3
  | .writeProfile _ _ => 3
  | .writeStation _ _ => 3
  | .loadPlain _ _ _ => 4
  | .loadRejectSpan _ _ => 4
  | .loadGrade _ _ => 4
  | .loadZone _ _ => 4
  | .loadProfile _ _ => 4
  | .loadStation _ _ => 4
  | .start => 5
  | .restart => 6
  | .mode _ => 7
  | .orderAppend _ _ => 8
  | .orderAmend _ _ => 9
  | .orderCancel _ => 10
  | .orderFront _ => 11
  | .rollPrepare _ _ _ => 12
  | .rollWithdraw _ => 13
  | .spliceNow _ => 14
  | .spliceAbort _ => 15
  | .latchClear _ _ => 16
  | .clearStop _ => 17
  | .mark _ _ => 18
  | .triggerSet _ _ _ _ => 19
  | .triggerClear _ => 20

/-- The request code of a held request (Table 10-1). -/
def HeldBody.code : HeldBody → Nat
  | .mode _ => 7
  | .spliceNow _ => 14
  | .mark _ _ => 18
  | .orderFront _ => 11
  | .latchClear _ _ => 16
  | .other c => c

end Sys2Proof
end

