-- ==== Sys2Proof/Config.lean ====
section
/-! DEFINITION. What the manual fixes for every part (capacities and the identity IDENTIFY returns, R197) and the free
values: constants with no body, of which no proof can see a value. -/

namespace Sys2Proof.Config

/-- Marks of the segment map (R18, R197). -/
abbrev mapCapacity : Nat := 128
/-- The defect tier (R26). -/
abbrev defectTier : Nat := 108
/-- The process and boundary tier (R26). -/
abbrev processTier : Nat := 122
/-- Orders of the order queue (R43). -/
abbrev orderCapacity : Nat := 64
/-- Entries of the station table (R174). -/
abbrev stationCapacity : Nat := 32
/-- Directives of the directive queue (R179). -/
abbrev directiveCapacity : Nat := 48
/-- Reports of the report queue (R182). -/
abbrev reportCapacity : Nat := 16
/-- Frames of the forwarding buffer (R172). -/
abbrev forwardingCapacity : Nat := 2
/-- Entries of the trigger table (Table 10-5). -/
abbrev triggerCapacity : Nat := 8
/-- Zones (R138). -/
abbrev zoneCapacity : Nat := 16
/-- Grades (R136). -/
abbrev gradeCapacity : Nat := 32
/-- Profiles (R139). -/
abbrev profileCapacity : Nat := 8
/-- Stands (R110). -/
abbrev standCapacity : Nat := 5

/-- FREE VALUE (DESIGN CHOICE, log entry 4): the 48-bit web position recorded where the exact value, the argument, lies
outside the signed 48-bit range of R2. The manual bounds the field and states no result there. -/
opaque webBeyond : Int → BitVec 48

/-- FREE VALUE (DESIGN CHOICE, log entry 34): the 24-bit length recorded for a closed GRADE_MISMATCH window whose exact
length, the argument, is beyond 16,777,215. Table 2-1 bounds the field and R125 states no result there. -/
opaque windowBeyond : Nat → BitVec 24

/-- FREE VALUE (DESIGN CHOICE, log entry 3): what the n-th answered "time left" reads, before it is bounded by the timer's
duration (R108, R166). The model has no clock. -/
opaque timeLeft : Nat → Nat

/-- FREE VALUE (DESIGN CHOICE, log entry 5): the fields that the body octets of a request with this code and group mask
stand for, or none where the body's length does not match. The manual gives request bodies by their fields (Table 10-1) and
no octet layout for them. -/
opaque requestBody : (code mask : Byte) → List Byte → Option Body

end Sys2Proof.Config
end

