-- ==== Sys2Proof/Machine/State.lean ====
section
/-! DEFINITION. The state of the 4120 as plain data: one record per block (00_scope.md, Blocks of the 4120), the queue of
waiting commands, and the state right after reset (R17, R42, R70, R85, R109, R135, R154, R167, R185, R203). -/

namespace Sys2Proof.Machine

/-- Why the machine could stop. The part never stops: a bad frame is discarded, a bad request is answered REFUSED, a bad
station is a status bit. So no constructor exists. -/
inductive Fault where
deriving DecidableEq, Repr

/-- Why the model gives a command no meaning. -/
inductive Refusal where
  /-- Raised by an arm of `exec` whose command has no meaning yet; safe, since nothing is claimed of such a command. No arm
  of this model raises it. -/
  | notModelled (mnemonic : String)
deriving DecidableEq, Repr

/-! ## Answers -/

/-- Refusal reasons (Table 10-2). -/
inductive Reason where
  | unknownRequest | size | parameter | wrongState | inUse | tooLate | full | duplicate | notFound | notPermitted
  | stillActive
deriving DecidableEq, Repr, Inhabited

/-- PARAMETER detail codes (Table 10-3); `none` is detail code 0. -/
inductive Detail where
  | none | fieldRange | widthRange | cutRange | targetRange | stackRange | laneSum | laneNarrow | trimNarrow | scoreOrder
  | scoreEdge | gradeMissing | paperRange | stageCount | stageShort | shareSum | profileLong | shareZero | offsetOrder
  | leadLong | gateFar | roleMissing | noActiveRoll | gradeEmpty | notTriggerable | linePassed
deriving DecidableEq, Repr, Inhabited

/-- The states of a knife station (R71). -/
inductive KnifeState where
  | idle | setting | ready | engaged | faulted
deriving DecidableEq, Repr, Inhabited

/-- The subject a refusal names (R189). No rule of a request names the stations' states as its subject; COMMIT_HELD carries them
(R74). -/
inductive Subject where
  | none
  | stand (k : Nat)
  | zone (n : Nat)
  | role (r : Role)
  | grade (g : Nat)
  | marks (n : Nat)
  | levels (low high cutout : Bool)
  | stations (a b : KnifeState)
deriving DecidableEq, Repr, Inhabited

/-! ## Position Tracker -/

/-- An entry of the slow holder set (R14). -/
structure SlowHolder where
  stand : Nat
  limit : Nat
deriving DecidableEq, Repr, Inhabited

/-- The Position Tracker's state (R17). -/
structure PtState where
  lineCount : Nat
  lastSeq : Option Byte
  speed : Nat
  stopped : Bool
  lostTallies : Nat
  trackingWarned : Bool
  geometry : Geometry
  slow : List SlowHolder
  stop : List StopCause
deriving DecidableEq, Repr, Inhabited

/-! ## Segment Map -/

/-- Where a mark was made (Table 2-1). -/
inductive Source where
  | zone (n : Nat)
  | knife (k : KnifeId)
  | stand (k : Nat)
  | operator
deriving DecidableEq, Repr, Inhabited

/-- The thresholds of a boundary (Table 2-4). -/
inductive Threshold where
  | release
  | zone (n : Nat)
  | knifeApproach (k : KnifeId)
  | knifeArrival (k : KnifeId)
  | cutoff
deriving DecidableEq, Repr, Inhabited

/-- The extent of a window: open, or closed with a length (R19). -/
inductive Extent where
  | openEnded
  | closed (length : Nat)
deriving DecidableEq, Repr, Inhabited

/-- What a mark records, with the fields its kind has (Table 2-1). A boundary also holds the thresholds taken (R35). -/
inductive MarkKind where
  | boundary (fromOrder : Option OrderId) (toOrder : OrderId) (taken : List Threshold)
  | joint (stand : Nat)
  | window (cause : WindowCause) (source : Source) (extent : Extent)
deriving DecidableEq, Repr, Inhabited

/-- A mark of the segment map (Table 2-1). -/
structure Mark where
  id : MarkId
  w : WebPos
  kind : MarkKind
  uncertainty : Nat
deriving DecidableEq, Repr, Inhabited

/-- The Segment Map's state (R42); the spans stand in the order of Table 2-3. `insertion` lists the ids of the marks in the
map in the order of their insertion, which R28's choice among candidates reads (DEDUCED, log entry 25). -/
structure SmState where
  marks : List Mark
  insertion : List MarkId
  nextId : MarkId
  spans : List Span
deriving DecidableEq, Repr, Inhabited

/-! ## Order Sequencer -/

/-- Reject causes in precedence order (Table 5-1). -/
inductive RejectCause where
  | noOrder | boundary | joint | knifeFault | lateSet | gradeMismatch | glueStarve | heatDeviation | transition | operator
  | short | surplus | stackerFault | stackerBusy | stackerFull | gateDwell
deriving DecidableEq, Repr, Inhabited

/-- Feed states (R47). -/
inductive FeedState where
  | queued | next | feeding | committed | fed
deriving DecidableEq, Repr, Inhabited

/-- Cut states (R44); an order is removed in the event that makes it CLOSED (R67). -/
inductive CutState where
  | waiting | cutting | closed
deriving DecidableEq, Repr, Inhabited

/-- The count of reject sheets under one cause (R48). -/
structure RejectCount where
  cause : RejectCause
  sheets : Nat
deriving DecidableEq, Repr, Inhabited

/-- An order record (Table 3-1). -/
structure Order where
  id : OrderId
  parent : Option OrderId
  target : Nat
  overrun : Nat
  layout : Layout
  cutLength : Nat
  grade : Nat
  stackHeight : Nat
  policy : ShortPolicy
  holdAfter : Bool
  feed : FeedState
  cutState : CutState
  startW : Option WebPos
  planned : Option Nat
  endW : Option WebPos
  committedBefore : Bool
  cancelPending : Bool
  released : Nat
  cuts : Nat
  good : Nat
  rejects : List RejectCount
deriving DecidableEq, Repr, Inhabited

/-- Hold causes (Table 3-5). -/
inductive HoldCause where
  | none | operator | singleDone | holdAfter | trip | knifeFault | stackerFault | directiveOverflow | restart
deriving DecidableEq, Repr, Inhabited

/-- The failed condition of the PAPER check (R54). -/
inductive PaperFault where
  | noStandby | notReady | paperCode | rollNarrow | spliceBusy
deriving DecidableEq, Repr, Inhabited

/-- COMMIT_HELD reasons with their details (Table 3-4). -/
inductive HeldReason where
  | invalid (d : Detail)
  | paper (stand : Nat) (f : PaperFault)
  | knife (a b : KnifeState)
  | mapFull (marks : Nat)
deriving DecidableEq, Repr, Inhabited

/-- An entry of the compensation list: a mark and the contribution credited for it (R49, R50). -/
structure Credit where
  mark : MarkId
  amount : Nat
deriving DecidableEq, Repr, Inhabited

/-- The Order Sequencer's state (R70); `compensation` and `credits` belong to the feeding order. -/
structure OsState where
  orders : List Order
  mode : Mode
  holdCause : HoldCause
  heldReason : Option HeldReason
  compensation : Nat
  credits : List Credit
deriving DecidableEq, Repr, Inhabited

/-! ## Knife Station Controller -/

/-- A held layout with the order it was sent for (Table 4-1). -/
structure HeldLayout where
  layout : Layout
  order : OrderId
deriving DecidableEq, Repr, Inhabited

/-- A boundary as KC's records name it (Table 4-1). -/
structure BoundaryRef where
  mark : MarkId
  w : WebPos
deriving DecidableEq, Repr, Inhabited

/-- The engage field (Table 4-1). `mark` is absent where the field names a web position only (R79, R82). -/
structure Engage where
  waiting : Bool
  mark : Option MarkId
  w : WebPos
deriving DecidableEq, Repr, Inhabited

/-- The window a knife station holds open: a LATE_SET or a KNIFE_FAULT window (Table 4-1). -/
inductive KnifeWindow where
  | late (mark : MarkId)
  | fault (mark : MarkId)
deriving DecidableEq, Repr, Inhabited

/-- A knife station record (Table 4-1). `lateRefused` remembers that the LATE_SET window owed for the engage was refused,
which the LATE_END report of R80 states (DEDUCED, log entry 17). -/
structure KnifeRecord where
  state : KnifeState
  held : Option HeldLayout
  served : List OrderId
  boardPresent : Bool
  lift : Option BoundaryRef
  engage : Option Engage
  window : Option KnifeWindow
  lateRefused : Bool
deriving DecidableEq, Repr, Inhabited

/-- The Knife Station Controller's state (R85). -/
structure KcState where
  a : KnifeRecord
  b : KnifeRecord
deriving DecidableEq, Repr, Inhabited

/-! ## Cut Classifier and Stack Counter -/

/-- A plan list entry (R86). -/
structure PlanEntry where
  mark : MarkId
  w : WebPos
  fromOrder : Option OrderId
  toOrder : OrderId
  cutLength : Nat
deriving DecidableEq, Repr, Inhabited

/-- Stack close causes (Table 5-2). -/
inductive StackClose where
  | height | orderEnd | faulted | abandoned
deriving DecidableEq, Repr, Inhabited

/-- A stack (R99). -/
structure Stack where
  sequence : Word16
  order : OrderId
  lanes : Nat
  height : Nat
  cuts : Nat
  lastEnd : WebPos
  closePending : Option StackClose
deriving DecidableEq, Repr, Inhabited

/-- The gate plan (R97): the planned state REJECT or PASS, and the last change. -/
structure GatePlan where
  reject : Bool
  lastChange : Option WebPos
deriving DecidableEq, Repr, Inhabited

/-- The stacker record (R99). The timer holds the duration it was started with. -/
structure Stacker where
  transferring : Bool
  current : Option Stack
  deck : Option Stack
  faulted : Bool
  timer : Option Nat
  position : WebPos
deriving DecidableEq, Repr, Inhabited

/-- The cut counters (R108). -/
structure CutCounters where
  taken : Nat
  noOrder : Nat
  lost : Nat
  duplicate : Nat
  cleanTrims : Nat
  missedTrims : Nat
  dwellLosses : Nat
deriving DecidableEq, Repr, Inhabited

/-- The Cut Classifier and Stack Counter's state (R109). -/
structure CsState where
  lastSeq : Option Byte
  prevWc : Option WebPos
  plan : List PlanEntry
  gate : GatePlan
  stacker : Stacker
  stackCounter : Word16
  counters : CutCounters
deriving DecidableEq, Repr, Inhabited

/-! ## Splice Controller -/

/-- A roll record (R111). -/
structure Roll where
  rollId : Nat
  paper : Nat
  width : Nat
  length : Nat
  remaining : Nat
deriving DecidableEq, Repr, Inhabited

/-- The standby arm with its arm state (R111). -/
inductive StandbyArm where
  | empty
  | prepared (r : Roll)
  | ready (r : Roll)
deriving DecidableEq, Repr, Inhabited

/-- Splice states (Table 6-2). -/
inductive SpliceState where
  | idle | pending | armed | accelerating | matched | pasting | fault
deriving DecidableEq, Repr, Inhabited

/-- Splice kinds (Table 6-2). -/
inductive SpliceKind where
  | runOut | planned | manual
deriving DecidableEq, Repr, Inhabited

/-- A splice's target: a web position, or *now* (Table 6-2). -/
inductive Target where
  | at (w : WebPos)
  | now
deriving DecidableEq, Repr, Inhabited

/-- A splice record (Table 6-2). A timer holds the duration it was started with. -/
structure Splice where
  state : SpliceState
  kind : Option SpliceKind
  target : Option Target
  boundaryW : Option WebPos
  paper : Option Nat
  width : Option Nat
  pulled : Bool
  accelTimer : Option Nat
  pasteTimer : Option Nat
  swapOwed : Bool
deriving DecidableEq, Repr, Inhabited

/-- A stand record (Table 6-1) with its arms (R111), its splice (R116) and its references into the map. -/
structure Stand where
  role : PaperRole
  takeup : Nat
  effOffset : Nat
  spliceLead : Nat
  runOut : Nat
  maxSpeed : Nat
  accelTimeout : Nat
  pasteTimeout : Nat
  address : Option Nat
  active : Option Roll
  carry : Nat
  standby : StandbyArm
  splice : Splice
  jointRef : Option MarkId
  mismatch : Option BoundaryRef
deriving DecidableEq, Repr, Inhabited

/-- The Splice Controller's state (R135): the stand records, stand 1 first; the stand count is their number. -/
structure ScState where
  stands : List Stand
deriving DecidableEq, Repr, Inhabited

/-! ## Zone Regulator -/

/-- Zone running states (Table 7-3). -/
inductive ZoneRun where
  | idle | steady | ramping | standby
deriving DecidableEq, Repr, Inhabited

/-- A ramp record (R142). -/
structure Ramp where
  start : Int
  target : Int
  startCount : Nat
  stages : List Stage
  markTransition : Bool
  stageIndex : Nat
  boundary : Option MarkId
  window : Option MarkId
deriving DecidableEq, Repr, Inhabited

/-- A zone record: the groups of Table 7-1 and the running state of Table 7-3. -/
structure Zone where
  placed : Bool
  kind : ZoneKind
  offset : Nat
  station : Option Nat
  channel : Nat
  rampLead : Nat
  profile : Nat
  standbyDelay : Nat
  standbySetpoint : Int
  bandLow : Int
  bandHigh : Int
  cutout : Int
  hysteresis : Nat
  lowActions : ActionSet
  highActions : ActionSet
  cutoutActions : ActionSet
  run : ZoneRun
  grade : Option Nat
  current : Option Int
  ramp : Option Ramp
  returnValue : Option Int
  lastApproach : Option MarkId
  priorGrade : Option Nat
  priorTarget : Option Int
deriving DecidableEq, Repr, Inhabited

/-- The Zone Regulator's state (R154). -/
structure ZrState where
  grades : List (Option Grade)
  zones : List Zone
  profiles : List Profile
deriving DecidableEq, Repr, Inhabited

/-! ## Trip and Standby unit -/

/-- One value for each trip level of a zone. -/
structure PerLevel (α : Type) where
  low : α
  high : α
  cutout : α
deriving DecidableEq, Repr, Inhabited

/-- A zone's last reading with its line count (R155). -/
structure LastReading where
  value : Int
  lineCount : Nat
deriving DecidableEq, Repr, Inhabited

/-- What the Trip and Standby unit holds for a zone (R167). -/
structure ZoneTrip where
  live : PerLevel Bool
  latched : PerLevel Bool
  readingPart : Bool
  stationFault : Bool
  windows : PerLevel (Option MarkId)
  timer : Option Nat
  held : Bool
  lastReading : Option LastReading
deriving DecidableEq, Repr, Inhabited

/-- The Trip and Standby unit's state (R167). -/
structure TsState where
  zones : List ZoneTrip
  readingsTaken : Nat
  unmatched : Nat
deriving DecidableEq, Repr, Inhabited

/-! ## Management Engine -/

/-- The two management sources (R186). -/
inductive MgmtSource where
  | supervisor | panel
deriving DecidableEq, Repr, Inhabited

/-- The event that releases a trigger entry (Table 10-5). -/
inductive Trigger where
  | lineAt (count : Nat)
  | feedStart (order : OrderId)
  | orderClosed (order : OrderId)
  | spliceDone (stand : Nat)
deriving DecidableEq, Repr, Inhabited

/-- A trigger table entry (Table 10-5). -/
structure TriggerEntry where
  trigger : Trigger
  heldTag : Byte
  held : HeldBody
  source : MgmtSource
  tag : Nat
deriving DecidableEq, Repr, Inhabited

/-- The Management Engine's state (R203). `feedStarts` holds feed-start notices given and not yet matched (R201). -/
structure MeState where
  running : Bool
  triggers : List (Option TriggerEntry)
  discards : Nat
  feedStarts : List OrderId
deriving DecidableEq, Repr, Inhabited

/-! ## Ring Interface: directives, reports, answers, frames -/

/-- Where a directive takes effect: a web position, or *at once* (Table 9-9). -/
inductive Effective where
  | at (w : WebPos)
  | atOnce
deriving DecidableEq, Repr, Inhabited

/-- The LINE_REQUEST forms (Table 9-9). -/
inductive LineRequest where
  | slow (limit : Nat)
  | resume
  | stop
deriving DecidableEq, Repr, Inhabited

/-- The CUT_PLAN forms (Table 9-9). -/
inductive CutPlan where
  | plan (trim : WebPos) (cutLength : Nat)
  | cancel (trim : WebPos)
  | clear
deriving DecidableEq, Repr, Inhabited

/-- Directives with the fields their payloads carry (Table 9-9). -/
inductive Directive where
  | setLayout (order : OrderId) (layout : Layout)
  | engage (e : Effective)
  | lift (e : Effective)
  | cutPlan (p : CutPlan)
  | gate (reject : Bool) (e : Effective)
  | stackTransfer (sequence : Word16) (w : WebPos)
  | arm (rollId : Nat)
  | paste (rollId : Nat)
  | abort
  | setpoint (zone channel : Nat) (value : Int)
  | lineRequest (r : LineRequest)
deriving DecidableEq, Repr, Inhabited

/-- A directive in the queue with its target address, fixed when it is placed (R180). -/
structure PlacedDirective where
  target : Nat
  directive : Directive
deriving DecidableEq, Repr, Inhabited

/-- A CHANGE report's body (R177). -/
structure ChangeReport where
  address : Nat
  role : Role
  oldWord : Word16
  newWord : Word16
  changed : Word16
  overwritten : Bool
  lineCount : Nat
deriving DecidableEq, Repr, Inhabited

/-- Splice outcomes (Table 6-3). -/
inductive SpliceOutcome where
  | done | onTime | late | early | aborted | cancelled | faulted | webOut | abandoned | unexpected
deriving DecidableEq, Repr, Inhabited

/-- What a FAULTED splice report names (R129, R130). -/
inductive SpliceFault where
  | accelTimer | pasteTimer | stand
deriving DecidableEq, Repr, Inhabited

/-- The outcome of a window claim as reports carry it: none made, a mark id, or *refused*. -/
inductive WindowWord where
  | none
  | mark (id : MarkId)
  | refused
deriving DecidableEq, Repr, Inhabited

/-- What a splice's completion adds to its report (R133): the joint, absent for an owed swap (R135), the rolls and the
window. -/
structure SpliceCompletion where
  joint : Option (WebPos × MarkId)
  butt : Nat
  oldRoll : Nat
  newRoll : Nat
  window : WindowWord
deriving DecidableEq, Repr, Inhabited

/-- A SPLICE report (R133). -/
structure SpliceReport where
  stand : Nat
  role : PaperRole
  kind : Option SpliceKind
  outcome : SpliceOutcome
  before : SpliceState
  target : Option Target
  boundaryW : Option WebPos
  pulled : Bool
  fault : Option SpliceFault
  offset : Option Nat
  completion : Option SpliceCompletion
deriving DecidableEq, Repr, Inhabited

/-- Order outcomes (Table 3-7); MADE_UP carries the new order's make-up index (R69). -/
inductive OrderOutcome where
  | cancelled | complete | short | shortNoRoom | madeUp (index : Nat) | abandoned
deriving DecidableEq, Repr, Inhabited

/-- TRIP report events (Table 8-2) with their further fields. -/
inductive TripEvent where
  | rise (level : Level) (value : Option Int) (threshold : Option Int) (actions : ActionSet) (window : WindowWord)
      (stopClaimed holdClaimed : Bool)
  | standbyIn (closed : List MarkId) (setpoint : Int) (returnValue : Option Int)
  | standbyOut (returned : Option Int)
deriving DecidableEq, Repr, Inhabited

/-- A TRIP report (R165). -/
structure TripReport where
  zone : Nat
  kind : ZoneKind
  event : TripEvent
  live : PerLevel Bool
  latched : PerLevel Bool
  stationFault : Bool
  lastReading : Option LastReading
  current : Option Int
deriving DecidableEq, Repr, Inhabited

/-- KNIFE report events (Table 4-3) with their further fields. -/
inductive KnifeEvent where
  | late (window : WindowWord) (w : WebPos)
  | lateEnd (mark : MarkId) (w : WebPos) (length : Nat)
  | lateEndRefused (w point : WebPos)
  | liftUnasked (point : WebPos)
  | fault (window : WindowWord) (stopClaimed : Bool)
  | faultEnd (closed : Option (MarkId × Nat)) (resent : Option HeldLayout)
deriving DecidableEq, Repr, Inhabited

/-- A KNIFE report (R83). -/
structure KnifeReport where
  station : KnifeId
  event : KnifeEvent
  before : KnifeState
  after : KnifeState
  served : List OrderId
  boundary : Option MarkId
deriving DecidableEq, Repr, Inhabited

/-- A COMMIT_HELD report (R56). -/
structure CommitHeld where
  current : Option OrderId
  head : OrderId
  reason : HeldReason
  released : Nat
  planned : Nat
  beyond : Nat
deriving DecidableEq, Repr, Inhabited

/-- A MAP report (Table 2-5). -/
inductive MapReport where
  | untracked (cause : WindowCause) (source : Source) (w : WebPos) (extent : Extent) (marks tier : Nat)
  | truncated (mark : MarkId) (cause : WindowCause) (source : Source) (lo hi : WebPos)
deriving DecidableEq, Repr, Inhabited

/-- A TRACKING report (R12, R13). -/
inductive TrackingReport where
  | overDelta (sequence : Byte) (delta : Nat) (lineCount : Nat)
  | uncertain (uncertainty : Nat) (mark : MarkId) (limit : Nat)
deriving DecidableEq, Repr, Inhabited

/-- A STACK report (R107). -/
structure StackReport where
  sequence : Word16
  order : OrderId
  cuts : Nat
  sheets : Nat
  height : Nat
  cause : StackClose
  position : Option WebPos
  deck : Option (OrderId × Nat)
deriving DecidableEq, Repr, Inhabited

/-- A READ answer's item, as the owning rule lists it (Table 10-4). `timeLeft` fields are free values (log entry 3). -/
inductive ItemValue where
  | managementStatus (running : Bool) (discards inUse : Nat) (supervisorFull panelFull refusalFull : Bool)
  | trigger (e : Option TriggerEntry)
  | lineStatus (lineCount speed : Nat) (stopped : Bool) (lost : Nat) (stop : List StopCause) (slow : List SlowHolder)
  | lineGeometry (g : Geometry)
  | mapStatus (marks boundaries joints openWindows closedWindows : Nat) (nextId : MarkId) (largest : Nat)
  | mapEntry (m : Mark) (farEdge lo hi : WebPos)
  | rejectSpan (v : Span)
  | order (o : Order)
  | sequencerStatus (queued next feeding committed fed : Nat) (mode : Mode) (cause : HoldCause) (held : Option HeldReason)
      (current : Option OrderId) (released planned : Nat)
  | knifeStatus (r : KnifeRecord) (ready engaged lifted fault : Bool)
  | cutStatus (lastSeq : Option Byte) (prevWc : Option WebPos) (counters : CutCounters) (plan : List PlanEntry)
      (gate : GatePlan)
  | stackerStatus (r : Stacker) (counter : Word16) (timeLeft : Option Nat)
  | standConfiguration (count : Nat)
  | stand (r : Stand) (standbyReady speedMatched pasteDone fault : Bool)
  | grade (g : Option Grade) (inUse : Bool)
  | zone (z : Zone) (travel : Option Nat) (stageValue : Option Int)
  | profile (p : Profile)
  | tripStatus (z : ZoneTrip) (timeLeft : Option Nat)
  | tripCounters (taken unmatched : Nat)
  | station (address : Nat) (role : Role) (watch word lastOffset : Word16) (slots : List ChangeReport)
  | stationEmpty
  | ringStatus (ownAddress : BitVec 6) (frameFaults returned stray malformed overruns discardedDirectives reportsLost : Nat)
      (directives : Nat) (setpointZones : List Nat) (lineRequest : Option LineRequest)
      (supervisorFull panelFull refusalFull : Bool) (reports held : Nat) (nextReport : Word16)
  | fault (cause : Option Bool) (origin kind length : Option Byte) (octets : Nat) (received : Option (Byte × Byte))
      (formed : Option (Byte × Byte)) (lineCount : Nat) (count : Nat)
deriving DecidableEq, Repr, Inhabited

/-- An accepted answer's body (R189, R197 to R200). -/
inductive AnswerBody where
  | none
  | identity (family : String) (part revision : Nat) (marks orders grades zones profiles stations stands triggers : Nat)
      (ownAddress : BitVec 6) (running : Bool)
  | item (v : ItemValue)
  | queueIndex (i : Nat)
  | mark (id : MarkId) (merged : Bool)
  | entryIndex (i : Nat)
  | indices (is : List Nat)
deriving DecidableEq, Repr, Inhabited

/-- The result of a request (R189). -/
inductive Reply where
  | accepted (b : AnswerBody)
  | refused (r : Reason) (d : Detail) (s : Subject)
deriving DecidableEq, Repr, Inhabited

/-- TRIGGER report outcomes (Table 10-6); BROKEN names the entries removed with it. -/
inductive TriggerOutcome where
  | done
  | refused
  | broken (removed : List (Nat × Trigger × Nat))
  | orphaned
deriving DecidableEq, Repr, Inhabited

/-- A TRIGGER report (R202); an orphaned entry has no answer (R200). -/
structure TriggerReport where
  index : Nat
  entry : TriggerEntry
  outcome : TriggerOutcome
  reply : Option Reply
deriving DecidableEq, Repr, Inhabited

/-- Report bodies by kind (Table 9-8). -/
inductive ReportBody where
  | change (r : ChangeReport)
  | splice (r : SpliceReport)
  | order (o : Order) (outcome : OrderOutcome)
  | stack (r : StackReport)
  | trip (r : TripReport)
  | knife (r : KnifeReport)
  | commitHeld (r : CommitHeld)
  | map (r : MapReport)
  | tracking (r : TrackingReport)
  | trigger (r : TriggerReport)
  | line (stop : List StopCause) (slow : List SlowHolder) (heldLimit : Option Nat) (placed : Option LineRequest)
deriving DecidableEq, Repr, Inhabited

/-- A report with its number and its line count (Table 9-7). -/
structure Report where
  number : Word16
  lineCount : Nat
  body : ReportBody
deriving DecidableEq, Repr, Inhabited

/-- The answer slots (R181). -/
inductive Slot where
  | supervisor | panel | refusal
deriving DecidableEq, Repr, Inhabited

/-- An answer waiting in its slot, with the origin it goes to and what it echoes (R181, R189). -/
structure Answer where
  slot : Slot
  target : Byte
  code : Byte
  tag : Byte
  reply : Reply
deriving DecidableEq, Repr, Inhabited

/-- A frame on the ring: octets as received, a received REQUEST by its fields, or a frame the part originates, with its
target, its origin (the own address) and its sequence (R180 to R182; log entry 24). -/
inductive RingFrame where
  | octets (os : List Byte)
  | request (h : ReqHeader) (r : RequestForm)
  | directive (target : Nat) (origin : BitVec 6) (sequence : Byte) (d : Directive)
  | answer (target : Byte) (origin : BitVec 6) (sequence : Byte) (a : Answer)
  | report (target : Nat) (origin : BitVec 6) (sequence : Byte) (r : Report)
deriving DecidableEq, Repr, Inhabited

/-- The frame fault record (R169): `check` is true for the cause CHECK and false for LENGTH. -/
structure FaultRecord where
  check : Bool
  origin : Option Byte
  kind : Option Byte
  length : Option Byte
  octets : Nat
  received : Option (Byte × Byte)
  formed : Byte × Byte
  lineCount : Nat
deriving DecidableEq, Repr, Inhabited

/-- A station table entry (Table 9-1); its holding slots are the entry's part of `RiState.held`. -/
structure Station where
  address : Nat
  role : Role
  watch : Word16
  word : Word16
  lastOffset : Word16
deriving DecidableEq, Repr, Inhabited

/-- A CHANGE report in a holding slot of the entry with this index (R178). -/
structure HeldReport where
  entry : Nat
  report : ChangeReport
deriving DecidableEq, Repr, Inhabited

/-- The Ring Interface's state (R185). `held` lists the reports of all holding slots, the one waiting longest first; an
entry's first and second slot are the first and second of its reports there. -/
structure RiState where
  ownAddress : BitVec 6
  stations : List (Option Station)
  held : List HeldReport
  faultRecord : Option FaultRecord
  frameFaults : Nat
  returned : Nat
  stray : Nat
  malformed : Nat
  overruns : Nat
  discardedDirectives : Nat
  reportsLost : Nat
  forwarding : List RingFrame
  directives : List PlacedDirective
  answers : List Answer
  reports : List Report
  originSeq : Byte
  reportNumber : Word16
  txPin : Option RingFrame
deriving DecidableEq, Repr, Inhabited

/-- The state of the 4120: the ten blocks, the queue of commands waiting, first in first out, and the model's counter of
free values drawn. -/
structure State where
  ri : RiState
  pt : PtState
  sm : SmState
  os : OsState
  kc : KcState
  cs : CsState
  sc : ScState
  zr : ZrState
  ts : TsState
  me : MeState
  freeIndex : Nat
  pending : List Instr
deriving DecidableEq, Repr, Inhabited

/-! ## Values after the reset input -/

/-- The power-on values of Table 1-1. -/
def powerOnGeometry : Geometry :=
  { knifeAOffset := 0, knifeBOffset := 0, cutoffOffset := 0, gateOffset := 0, dPre := 20000, maxDelta := 120,
    tallyInterval := 10, warnLimit := 1000, mergeGap := 500, knifeLead := 3000, cutoffLead := 2000, gateDwell := 600,
    shortTolerance := 5, deckCapacity := 40, transferTimeout := 15, minLane := 80, minTrim := 8 }

/-- The power-on values of Table 2-3, in the order of its entries' indices (10.2: GLUE_STARVE 0 to BOUNDARY 8). -/
def powerOnSpans : List Span :=
  [⟨150, 150⟩, ⟨150, 150⟩, ⟨150, 150⟩, ⟨150, 150⟩, ⟨150, 150⟩, ⟨150, 150⟩, ⟨0, 0⟩, ⟨300, 900⟩, ⟨0, 0⟩]

/-- A knife station after the reset input (R85). -/
def idleKnife : KnifeRecord :=
  { state := .idle, held := none, served := [], boardPresent := false, lift := none, engage := none, window := none,
    lateRefused := false }

/-- A profile after the reset input (R139). -/
def powerOnProfile : Profile := { stages := [⟨500, 500⟩, ⟨500, 500⟩], markTransition := false }

/-- A zone after the reset input: Table 7-1's power-on values, and R154. -/
def powerOnZone : Zone :=
  { placed := false, kind := .plate, offset := 0, station := none, channel := 0, rampLead := 0, profile := 0,
    standbyDelay := 0, standbySetpoint := 0, bandLow := -100, bandHigh := 100, cutout := 32767, hysteresis := 10,
    lowActions := ⟨true, false, false, false⟩, highActions := ⟨true, false, false, false⟩,
    cutoutActions := ⟨true, false, false, true⟩, run := .idle, grade := none, current := none, ramp := none,
    returnValue := none, lastApproach := none, priorGrade := none, priorTarget := none }

/-- A zone's trip state after the reset input (R167). -/
def clearTrip : ZoneTrip :=
  { live := ⟨false, false, false⟩, latched := ⟨false, false, false⟩, readingPart := false, stationFault := false,
    windows := ⟨none, none, none⟩, timer := none, held := false, lastReading := none }

/-- An IDLE splice (R110, R116). -/
def idleSplice : Splice :=
  { state := .idle, kind := none, target := none, boundaryW := none, paper := none, width := none, pulled := false,
    accelTimer := none, pasteTimer := none, swapOwed := false }

/-- A stand record as it is created (R110, Table 6-1). -/
def newStand : Stand :=
  { role := .liner, takeup := 1000, effOffset := 0, spliceLead := 0, runOut := 60000, maxSpeed := 300, accelTimeout := 20,
    pasteTimeout := 3, address := none, active := none, carry := 0, standby := .empty, splice := idleSplice,
    jointRef := none, mismatch := none }

/-- The cut counters after the reset input and after RESTART (R109). -/
def zeroCounters : CutCounters := ⟨0, 0, 0, 0, 0, 0, 0⟩

/-- The Ring Interface after the reset input (R185), with the own address read from the straps (R173). -/
def resetRi (straps : BitVec 6) : RiState :=
  { ownAddress := straps, stations := List.replicate Config.stationCapacity none, held := [], faultRecord := none,
    frameFaults := 0, returned := 0, stray := 0, malformed := 0, overruns := 0, discardedDirectives := 0, reportsLost := 0,
    forwarding := [], directives := [], answers := [], reports := [], originSeq := 0, reportNumber := 0, txPin := none }

/-- The Position Tracker after the reset input (R17). -/
def resetPt : PtState :=
  { lineCount := 0, lastSeq := none, speed := 0, stopped := true, lostTallies := 0, trackingWarned := false,
    geometry := powerOnGeometry, slow := [], stop := [] }

/-- The Order Sequencer after the reset input (R70). -/
def resetOs : OsState :=
  { orders := [], mode := .hold, holdCause := .none, heldReason := none, compensation := 0, credits := [] }

/-- The stacker record after the reset input (R109); the transfer position is DESIGN CHOICE 0 (log entry 8). -/
def resetStacker : Stacker :=
  { transferring := false, current := none, deck := none, faulted := false, timer := none, position := 0 }

/-- The Cut Classifier and Stack Counter after the reset input (R109). -/
def resetCs : CsState :=
  { lastSeq := none, prevWc := none, plan := [], gate := ⟨true, none⟩, stacker := resetStacker, stackCounter := 0,
    counters := zeroCounters }

/-- The Zone Regulator after the reset input (R154). -/
def resetZr : ZrState :=
  { grades := List.replicate Config.gradeCapacity none, zones := List.replicate Config.zoneCapacity powerOnZone,
    profiles := List.replicate Config.profileCapacity powerOnProfile }

/-- The Trip and Standby unit after the reset input (R167). -/
def resetTs : TsState :=
  { zones := List.replicate Config.zoneCapacity clearTrip, readingsTaken := 0, unmatched := 0 }

/-- The Management Engine after the reset input (R203). -/
def resetMe : MeState :=
  { running := false, triggers := List.replicate Config.triggerCapacity none, discards := 0, feedStarts := [] }

/-- The part after a reset input with these straps and this queue of waiting commands. -/
def resetWith (straps : BitVec 6) (pending : List Instr) : State :=
  { ri := resetRi straps, pt := resetPt, sm := { marks := [], insertion := [], nextId := 0, spans := powerOnSpans }, os := resetOs,
    kc := { a := idleKnife, b := idleKnife }, cs := resetCs, sc := { stands := [] }, zr := resetZr, ts := resetTs,
    me := resetMe, freeIndex := 0, pending := pending }

/-- The machine right after reset: every block at its power-on values, the straps read as 1 (DESIGN CHOICE, log entry 2),
no command waiting. -/
def State.reset : State := resetWith 1 []

/-- The part is in PASSIVE: its straps read 0 or 63 (R173). -/
def State.passive (s : State) : Bool := s.ri.ownAddress == 0 || s.ri.ownAddress == 63

end Sys2Proof.Machine
end

