-- ==== Sys2Proof/Machine/Ops.lean ====
section
/-! DEFINITION. The shared operations every block uses: records by number, the web position of a point, the station table's
look-ups, the report queue (R182), the directive queue with its overflow (R179), the stop holder set (R15, R16) and the stop
claim at the Order Sequencer (R61). -/

namespace Sys2Proof.Machine

/-! ## Records by number -/

/-- The record of stand `k`, numbered from 1 (R110). -/
def standOf (s : State) (k : Nat) : Option Stand :=
  match k with
  | 0 => none
  | i + 1 => s.sc.stands[i]?

/-- Change stand `k`'s record. -/
def modStand (k : Nat) (f : Stand → Stand) (s : State) : State :=
  match k with
  | 0 => s
  | i + 1 => { s with sc := { s.sc with stands := s.sc.stands.modify i f } }

/-- The stand count (R110). -/
def standCount (s : State) : Nat := s.sc.stands.length

/-- The record of zone `n` (R138). -/
def zoneOf (s : State) (n : Nat) : Option Zone := s.zr.zones[n]?

/-- Change zone `n`'s record. -/
def modZone (n : Nat) (f : Zone → Zone) (s : State) : State :=
  { s with zr := { s.zr with zones := s.zr.zones.modify n f } }

/-- Zone `n`'s trip state (R167). -/
def tripOf (s : State) (n : Nat) : ZoneTrip := s.ts.zones.getD n clearTrip

/-- Change zone `n`'s trip state. -/
def modTrip (n : Nat) (f : ZoneTrip → ZoneTrip) (s : State) : State :=
  { s with ts := { s.ts with zones := s.ts.zones.modify n f } }

/-- The numbers of the placed zones, in zone number order (R138). -/
def placedZones (s : State) : List Nat :=
  (List.range s.zr.zones.length).filter fun n => ((zoneOf s n).map (·.placed)).getD false

/-- A knife station's record (R71). -/
def knifeOf (s : State) : KnifeId → KnifeRecord
  | .a => s.kc.a
  | .b => s.kc.b

/-- Change a knife station's record. -/
def modKnife (k : KnifeId) (f : KnifeRecord → KnifeRecord) (s : State) : State :=
  match k with
  | .a => { s with kc := { s.kc with a := f s.kc.a } }
  | .b => { s with kc := { s.kc with b := f s.kc.b } }

/-- The other knife station. -/
def otherKnife : KnifeId → KnifeId
  | .a => .b
  | .b => .a

/-- The order with this number and make-up index, if the queue holds it (R43). -/
def orderOf (s : State) (id : OrderId) : Option Order := s.os.orders.find? fun o => o.id == id

/-- Change the order with this number and make-up index. -/
def modOrder (id : OrderId) (f : Order → Order) (s : State) : State :=
  { s with os := { s.os with orders := s.os.orders.map fun o => if o.id == id then f o else o } }

/-- The current order: the one in FEEDING or COMMITTED (R43). -/
def currentOrder (s : State) : Option Order :=
  s.os.orders.find? fun o => o.feed == .feeding || o.feed == .committed

/-- The NEXT order (R43). -/
def nextOrder (s : State) : Option Order := s.os.orders.find? fun o => o.feed == .next

/-- The queued head: the first QUEUED order (R43). -/
def queuedHead (s : State) : Option Order := s.os.orders.find? fun o => o.feed == .queued

/-- The reject span entry with this index, in the order of Table 2-3 (R22). -/
def spanAt (s : State) (i : Nat) : Span := s.sm.spans.getD i ⟨0, 0⟩

/-- The grade record with this index, if loaded (R136). -/
def gradeOf (s : State) (g : Nat) : Option Grade := (s.zr.grades[g]?).join

/-- The paper code a grade holds for stand `k` (R136). -/
def gradePaper (s : State) (g k : Nat) : Option Nat := ((gradeOf s g).bind fun r => r.papers[k - 1]?).join

/-- The setpoint a grade holds for zone `n`; none stands for KEEP (R136). -/
def gradeSetpoint (s : State) (g n : Nat) : Option Int := ((gradeOf s g).bind fun r => r.setpoints[n]?).join

/-! ## Web positions -/

/-- The web position recorded for the exact value `x`: `x` itself within the signed 48-bit range of R2, and a free value
outside it, where the manual states no result (DESIGN CHOICE, log entry 4). -/
def webPos (x : Int) : WebPos :=
  if -(2 ^ 47) ≤ x ∧ x < 2 ^ 47 then x else (Config.webBeyond x).toInt

/-- The line count as an integer (R1). -/
def lineCount (s : State) : Int := (s.pt.lineCount : Int)

/-- The web position of the board now at a point of this offset (R2). -/
def boardAt (s : State) (offset : Nat) : WebPos := webPos (lineCount s - offset)

/-- A knife station's point (R71). -/
def knifeOffset (s : State) : KnifeId → Nat
  | .a => s.pt.geometry.knifeAOffset
  | .b => s.pt.geometry.knifeBOffset

/-- A zone's offset (R138). -/
def zoneOffset (s : State) (n : Nat) : Nat := ((zoneOf s n).map (·.offset)).getD 0

/-- A stand's effective offset (R110). -/
def standOffset (s : State) (k : Nat) : Nat := ((standOf s k).map (·.effOffset)).getD 0

/-! ## The station table (R174) -/

/-- The index and entry of the station table whose address this is, if any. -/
def stationAt (s : State) (address : Nat) : Option (Nat × Station) :=
  (s.ri.stations.zipIdx.findSome? fun e => match e with
    | (some r, i) => if r.address == address then some (i, r) else none
    | (none, _) => none)

/-- The first entry in this role, if any. -/
def stationIn (s : State) (r : Role) : Option Station :=
  s.ri.stations.findSome? fun e => match e with
    | some x => if x.role == r then some x else none
    | none => none

/-- The address of the station in this role; 0, which names no station (9.1), where no entry is in it (log entry 22). -/
def roleAddress (s : State) (r : Role) : Nat := ((stationIn s r).map (·.address)).getD 0

/-- The last status word of the station in this role; before its first STATE frame no bit is set (R85, R174), nor where no
entry is in the role (DESIGN CHOICE, log entry 73). -/
def roleWord (s : State) (r : Role) : Word16 := ((stationIn s r).map (·.word)).getD 0

/-- The role of a knife station (R71). -/
def knifeRole : KnifeId → Role
  | .a => .knifeA
  | .b => .knifeB

/-! ## Reports (R182) -/

/-- Place a report in the report queue: it takes the next report number; a full queue discards it and counts it (R182). -/
def report (b : ReportBody) (s : State) : State :=
  let r : Report := ⟨s.ri.reportNumber, s.pt.lineCount, b⟩
  if s.ri.reports.length < Config.reportCapacity then
    { s with ri := { s.ri with reports := s.ri.reports ++ [r], reportNumber := s.ri.reportNumber + 1 } }
  else
    { s with ri := { s.ri with reportsLost := bump s.ri.reportsLost 1, reportNumber := s.ri.reportNumber + 1 } }

/-! ## The stop claim at the Order Sequencer (R61) -/

/-- A stop claim sets the mode to HOLD and the hold cause to the claim's cause, whatever they were (R61). -/
def stopClaim (c : HoldCause) (s : State) : State := { s with os := { s.os with mode := .hold, holdCause := c } }

/-! ## The directive queue (R179) -/

/-- Whether a waiting directive is replaced by a new one: a SETPOINT of the same zone, or a LINE_REQUEST (R179, rule 1). -/
def replaces (new old : PlacedDirective) : Bool :=
  match new.directive, old.directive with
  | .setpoint z _ _, .setpoint z' _ _ => z == z'
  | .lineRequest _, .lineRequest _ => true
  | _, _ => false

/-- Whether a directive is LINE_REQUEST STOP (R179, rule 2). -/
def isStop (d : PlacedDirective) : Bool :=
  match d.directive with
  | .lineRequest .stop => true
  | _ => false

/-- The queue with a directive placed under the three rules of R179, or none where it is discarded. -/
def enqueue (d : PlacedDirective) (q : List PlacedDirective) : Option (List PlacedDirective) :=
  if q.any (replaces d) then some (q.map fun x => if replaces d x then d else x)
  else if isStop d && q.length < Config.directiveCapacity then some (q ++ [d])
  else if q.length + 2 ≤ Config.directiveCapacity then some (q ++ [d])
  else none

/-- The state with the directive queue replaced. -/
def setDirectives (q : List PlacedDirective) (s : State) : State := { s with ri := { s.ri with directives := q } }

/-- LINE_REQUEST to the DRIVE station (R16, R180). -/
def driveDirective (s : State) (r : LineRequest) : PlacedDirective := ⟨roleAddress s .drive, .lineRequest r⟩

/-- The held limit: the smallest limit among the slow holders, while there is one (R14). -/
def heldLimit : List SlowHolder → Option Nat
  | [] => none
  | h :: t => match heldLimit t with
    | none => some h.limit
    | some m => some (min h.limit m)

/-- Place the LINE report of R16, naming the directive placed or none. -/
def lineReport (placed : Option LineRequest) (s : State) : State :=
  report (.line s.pt.stop s.pt.slow (heldLimit s.pt.slow) placed) s

/-- Place a LINE_REQUEST STOP in RUNNING (R16); an entry is always kept for it (R179). In CONFIGURING none is placed. -/
def placeStop (s : State) : State :=
  if s.me.running then
    match enqueue (driveDirective s .stop) s.ri.directives with
    | some q => setDirectives q s
    | none => s
  else s

/-- A claim that places a cause at the stop holder set (R15): a cause already present changes nothing; a new one is added,
LINE_REQUEST STOP is placed in RUNNING and a LINE report is made (R16). -/
def claimStop (c : StopCause) (s : State) : State :=
  if s.pt.stop.contains c then s
  else
    let s := { s with pt := { s.pt with stop := s.pt.stop ++ [c] } }
    lineReport (if s.me.running then some .stop else none) (placeStop s)

/-- A directive discarded for want of room (R179): it is counted, the stop holder DIRECTIVE_OVERFLOW is claimed at PT and the
stop claim at OS. -/
def directiveOverflow (s : State) : State :=
  let s := { s with ri := { s.ri with discardedDirectives := bump s.ri.discardedDirectives 1 } }
  stopClaim .directiveOverflow (claimStop .directiveOverflow s)

/-- Place a directive for the station at this address (R179, R180). -/
def placeDirective (target : Nat) (d : Directive) (s : State) : State :=
  match enqueue ⟨target, d⟩ s.ri.directives with
  | some q => setDirectives q s
  | none => directiveOverflow s

/-- Place a directive for the station in this role (R180). -/
def direct (r : Role) (d : Directive) (s : State) : State := placeDirective (roleAddress s r) d s

/-- Place a directive for a stand's station, at its station address (R110, R180). -/
def directStand (k : Nat) (d : Directive) (s : State) : State :=
  placeDirective (((standOf s k).bind (·.address)).getD 0) d s

end Sys2Proof.Machine
end

