-- ==== Sys2Proof/Machine/Position.lean ====
section
/-! DEFINITION. The Position Tracker's drive request set (R14 to R16) and tracking warning (R13). -/

namespace Sys2Proof.Machine

/-- After a change of the slow holder set, or a removal from the stop holder set, the LINE_REQUEST the sets call for (R16):
none while a stop cause is held, else SLOW with the held limit, else RESUME. -/
def calledFor (s : State) : Option LineRequest :=
  if s.pt.stop.isEmpty then
    match heldLimit s.pt.slow with
    | some l => some (.slow l)
    | none => some .resume
  else none

/-- Decide the LINE_REQUEST after a change other than an added stop cause, place it in RUNNING and make the LINE report
(R16). The report is placed before the consequences of a discarded directive (DESIGN CHOICE, log entry 7). -/
def driveChange (s : State) : State :=
  match (if s.me.running then calledFor s else none) with
  | none => lineReport none s
  | some r =>
    match enqueue (driveDirective s r) s.ri.directives with
    | some q => lineReport (some r) (setDirectives q s)
    | none => directiveOverflow (lineReport (some r) s)

/-- Place a stand in the slow holder set with its limit (R14). -/
def placeSlow (k limit : Nat) (s : State) : State :=
  match s.pt.slow.find? (fun h => h.stand == k) with
  | none => driveChange { s with pt := { s.pt with slow := s.pt.slow ++ [⟨k, limit⟩] } }
  | some h =>
    if h.limit == limit then s
    else driveChange
      { s with pt := { s.pt with slow := s.pt.slow.map fun x => if x.stand == k then ⟨k, limit⟩ else x } }

/-- Remove a stand from the slow holder set (R14). -/
def removeSlow (k : Nat) (s : State) : State :=
  if s.pt.slow.any (fun h => h.stand == k) then
    driveChange { s with pt := { s.pt with slow := s.pt.slow.filter fun h => h.stand != k } }
  else s

/-- Remove a cause from the stop holder set (R15, R16). -/
def removeStop (c : StopCause) (s : State) : State :=
  driveChange { s with pt := { s.pt with stop := s.pt.stop.filter fun x => x != c } }

/-- The LINE_REQUEST START places for the sets as they stand (R16). -/
def startRequest (s : State) : LineRequest :=
  if s.pt.stop.isEmpty then
    match heldLimit s.pt.slow with
    | some l => .slow l
    | none => .resume
  else .stop

/-- The largest uncertainty in the map, 0 for an empty map (R13). -/
def largestUncertainty (s : State) : Nat := s.sm.marks.foldl (fun n m => max n m.uncertainty) 0

/-- The mark id of the first mark in map order that holds the largest uncertainty (R13). -/
def mostUncertain (s : State) : MarkId :=
  ((s.sm.marks.find? fun m => m.uncertainty == largestUncertainty s).map (·.id)).getD 0

/-- The examination of the tracking warning (R13). -/
def examineTracking (s : State) : State :=
  let u := largestUncertainty s
  if s.pt.geometry.warnLimit < u then
    if s.pt.trackingWarned then s
    else
      let s := report (.tracking (.uncertain u (mostUncertain s) s.pt.geometry.warnLimit)) s
      { s with pt := { s.pt with trackingWarned := true } }
  else { s with pt := { s.pt with trackingWarned := false } }

end Sys2Proof.Machine
end

