-- ==== Sys2Proof/Machine/SpliceArm.lean ====
section
/-! DEFINITION. The Splice Controller's examinations that the other blocks set off: PENDING (R120), the arm point (R121), the
paste point (R123), and the planned claim of the Order Sequencer (R119). The argument `ev` is the Order Sequencer's
evaluation, made at each notice of R111 (log entry 6). -/

namespace Sys2Proof.Machine

/-- Change a stand's splice record. -/
def modSplice (k : Nat) (f : Splice → Splice) (s : State) : State :=
  modStand k (fun r => { r with splice := f r.splice }) s

/-- The roll on the standby arm, if any (R111). -/
def StandbyArm.roll : StandbyArm → Option Roll
  | .empty => none
  | .prepared r => some r
  | .ready r => some r

/-- The standby arm is READY (R111). -/
def StandbyArm.isReady : StandbyArm → Bool
  | .ready _ => true
  | _ => false

/-- The standby arm is EMPTY (R111). -/
def StandbyArm.isEmpty : StandbyArm → Bool
  | .empty => true
  | _ => false

/-- The roll id ARM and PASTE carry: the standby roll's (R121, R123). -/
def standbyRollId (r : Stand) : Nat := (r.standby.roll.map (·.rollId)).getD 0

/-- The line count has reached a target's point: `lead` before the effective offset (R121, R123). A *now* target has reached
it. -/
def targetReached (s : State) (r : Stand) (lead : Nat) : Bool :=
  match r.splice.target with
  | some (.at w) => decide (w + r.effOffset - lead ≤ lineCount s)
  | some .now => true
  | none => false

/-- For kind PLANNED, the standby roll has the required paper and at least the required width (R120). -/
def paperFits (r : Stand) : Bool :=
  match r.splice.kind, r.standby.roll with
  | some .planned, some roll => r.splice.paper == some roll.paper && r.splice.width.getD 0 ≤ roll.width
  | some .planned, none => false
  | _, _ => true

/-- The conditions under which a PENDING splice becomes ARMED (R120). -/
def mayArm (r : Stand) : Bool :=
  r.splice.state == .pending && r.standby.isReady && r.jointRef.isNone && paperFits r

/-- The arm point (R121): when an ARMED splice has reached it, the stand becomes a slow holder, and ARM is placed at or below
the max splice speed. The speed tested is the Position Tracker's, which a tally has set before it hands on the count; so a splice that
arms inside the Segment Map's turn is tested with that tally's speed (R9, step 5; DESIGN CHOICE, log entry 43). -/
def examineArmPoint (ev : State → State) (k : Nat) (s : State) : State :=
  match standOf s k with
  | none => s
  | some r =>
    if r.splice.state == .armed && targetReached s r r.spliceLead then
      let s := placeSlow k r.maxSpeed s
      if s.pt.speed ≤ r.maxSpeed then
        let s := directStand k (.arm (standbyRollId r)) s
        ev (modSplice k (fun p => { p with state := .accelerating, accelTimer := some r.accelTimeout }) s)
      else s
    else s

/-- The paste point (R123): when a MATCHED splice has reached it, PASTE is placed and the paste timer starts. -/
def examinePastePoint (ev : State → State) (k : Nat) (s : State) : State :=
  match standOf s k with
  | none => s
  | some r =>
    if r.splice.state == .matched && targetReached s r 0 then
      let s := directStand k (.paste (standbyRollId r)) s
      ev (modSplice k (fun p => { p with state := .pasting, pasteTimer := some r.pasteTimeout }) s)
    else s

/-- A *now* target is fixed at the web position at the stand's effective offset (R116). -/
def fixTarget (s : State) (r : Stand) : Option Target → Option Target
  | some .now => some (.at (boardAt s r.effOffset))
  | t => t

/-- A PENDING splice whose conditions hold becomes ARMED; the arm point is examined at once (R120). -/
def examinePending (ev : State → State) (k : Nat) (s : State) : State :=
  match standOf s k with
  | none => s
  | some r =>
    if mayArm r then
      examineArmPoint ev k
        (ev (modSplice k (fun p => { p with state := .armed, target := fixTarget s r p.target }) s))
    else s

/-- Make an IDLE splice PENDING with this record; the notice of R111 follows, and the conditions of R120 are examined. -/
def makePending (ev : State → State) (k : Nat) (f : Splice → Splice) (s : State) : State :=
  examinePending ev k (ev (modSplice k (fun p => { f p with state := .pending }) s))

/-- The Order Sequencer's planned claim (R119). A splice that is not IDLE answers busy and changes nothing. -/
def plannedClaim (ev : State → State) (k : Nat) (w : WebPos) (paper width : Nat) (s : State) : State :=
  match standOf s k with
  | none => s
  | some r =>
    if r.splice.state == .idle then
      makePending ev k
        (fun p => { p with kind := some .planned, target := some (.at w), boundaryW := some w, paper := some paper,
                           width := some width, pulled := false }) s
    else s

end Sys2Proof.Machine
end

