-- ==== Sys2Proof/Machine/SegmentMap.lean ====
section
/-! DEFINITION. The Segment Map: far edges and reject extents (R21, R23), cut queries (R24), insertion with its merge and
admission (R25 to R29), changes in place (R30 to R34) and retirement (R38, R39); with the Order Sequencer's compensation for
the notices it hands (R50). Dispatch at a boundary's insertion is in Thresholds.lean. -/

namespace Sys2Proof.Machine

/-! ## Far edges and extents -/

/-- The index of a mark's entry in the reject span table (Table 2-3). -/
def spanIndex : MarkKind → Nat
  | .window .glueStarve _ _ => 0
  | .window .heatDeviation _ _ => 1
  | .window .operator _ _ => 2
  | .window .gradeMismatch _ _ => 3
  | .window .lateSet _ _ => 4
  | .window .knifeFault _ _ => 5
  | .window .transition _ _ => 6
  | .joint _ => 7
  | .boundary _ _ _ => 8

/-- The offset of a window's point, by its source (Table 2-2). OPERATOR has none and is never open. -/
def pointOffset (s : State) : Source → Nat
  | .zone n => zoneOffset s n
  | .knife k => knifeOffset s k
  | .stand k => standOffset s k
  | .operator => 0

/-- The far edge of a mark (R21). It and the extent ends formed from it are exact also where they pass the 48-bit range of R2
(DESIGN CHOICE, log entry 46). -/
def farEdge (s : State) (m : Mark) : WebPos :=
  match m.kind with
  | .boundary _ _ _ => m.w
  | .joint _ => m.w
  | .window _ _ (.closed l) => m.w + l
  | .window _ src .openEnded => max m.w (lineCount s - pointOffset s src)

/-- The low end of a mark's reject extent (R23). -/
def extentLow (s : State) (m : Mark) : WebPos := m.w - (spanAt s (spanIndex m.kind)).lead - m.uncertainty

/-- The high end of a mark's reject extent (R23). -/
def extentHigh (s : State) (m : Mark) : WebPos := farEdge s m + (spanAt s (spanIndex m.kind)).trail + m.uncertainty

/-- A mark's reject extent overlaps the board from `a` to `b`: they share board of more than zero length (R23). -/
def overlaps (s : State) (m : Mark) (a b : WebPos) : Bool :=
  decide (a < b) && decide (extentLow s m < b) && decide (a < extentHigh s m)

/-- The answer to a cut query: the marks whose reject extent overlaps the sheet, in map order (R24). -/
def queryMap (s : State) (a b : WebPos) : List Mark := s.sm.marks.filter fun m => overlaps s m a b

/-- A mark is an open window (R19). -/
def Mark.isOpen (m : Mark) : Bool :=
  match m.kind with
  | .window _ _ .openEnded => true
  | _ => false

/-- A mark is a boundary. -/
def Mark.isBoundary (m : Mark) : Bool :=
  match m.kind with
  | .boundary _ _ _ => true
  | _ => false

/-- The mark with this id, if the map holds it (R20). -/
def markOf (s : State) (id : MarkId) : Option Mark := s.sm.marks.find? fun m => m.id == id

/-- Change the mark with this id in place. -/
def modMark (id : MarkId) (f : Mark → Mark) (s : State) : State :=
  { s with sm := { s.sm with marks := s.sm.marks.map fun m => if m.id == id then f m else m } }

/-! ## Compensation at the Order Sequencer (R49, R50) -/

/-- The contribution of an overlap to an order of this cut length (R50). -/
def contribution (cutLength overlap : Nat) : Nat := (ceilDiv overlap cutLength + 1) * cutLength

/-- The overlap a mark's notice gives an order starting at `startW`; none where it makes no contribution (R50). -/
def noticeOverlap (s : State) (startW : WebPos) (m : Mark) : Option Nat :=
  if m.isBoundary then none
  else if m.isOpen then
    let sp := spanAt s (spanIndex m.kind)
    some (sp.lead + sp.trail + 2 * m.uncertainty)
  else
    let o := extentHigh s m - max (extentLow s m) startW
    if 0 < o then some o.toNat else none

/-- The credit the compensation list holds for a mark, if any (R50). -/
def creditOf (s : State) (id : MarkId) : Option Nat := (s.os.credits.find? fun c => c.mark == id).map (·.amount)

/-- Add to the compensation and to the planned length of the order, and enter or raise the credit (R50). -/
def addCredit (order : OrderId) (id : MarkId) (amount extra : Nat) (s : State) : State :=
  let s := { s with os := { s.os with
    compensation := s.os.compensation + extra,
    credits := (s.os.credits.filter fun c => c.mark != id) ++ [⟨id, amount⟩] } }
  modOrder order (fun o => { o with planned := o.planned.map (· + extra) }) s

/-- The Order Sequencer takes an insertion or a merge notice (R50): while the current order is FEEDING and was not committed
before, the mark's contribution, or what it exceeds its credit by, is added. The flag says that an addition was made. -/
def takeNotice (m : Mark) (s : State) : State × Bool :=
  match currentOrder s with
  | none => (s, false)
  | some o =>
    if o.feed == .feeding && !o.committedBefore then
      match noticeOverlap s (o.startW.getD 0) m with
      | none => (s, false)
      | some ov =>
        let c := contribution o.cutLength ov
        match creditOf s m.id with
        | none => (addCredit o.id m.id c c s, true)
        | some old => if old < c then (addCredit o.id m.id c (c - old) s, true) else (s, false)
    else (s, false)

/-! ## Insertion (R25 to R29) -/

/-- The uncertainty an insertion claim gives: a number, or a reference mark whose uncertainty is copied (2.3). -/
inductive ClaimUncertainty where
  | exact (n : Nat)
  | like (id : MarkId)
deriving DecidableEq, Repr

/-- An insertion claim (2.3). -/
structure Claim where
  kind : MarkKind
  w : WebPos
  uncertainty : ClaimUncertainty
deriving DecidableEq, Repr

/-- The outcome of an insertion claim (2.3). -/
inductive InsertOutcome where
  | admitted (id : MarkId)
  | merged (id : MarkId)
  | refused
deriving DecidableEq, Repr, Inhabited

/-- The uncertainty of a new mark (R25, step 1). -/
def claimUncertainty (s : State) : ClaimUncertainty → Nat
  | .exact n => min uncertaintyMax n
  | .like id => ((markOf s id).map (·.uncertainty)).getD 0

/-- The causes of defect windows (R25, step 2; Table 2-2). -/
def isDefect : WindowCause → Bool
  | .glueStarve => true
  | .heatDeviation => true
  | .operator => true
  | _ => false

/-- Whether a mark in the map is a candidate for a defect window of this cause, source and start (R28). -/
def isCandidate (s : State) (c : WindowCause) (src : Source) (wn : WebPos) (m : Mark) : Bool :=
  match m.kind with
  | .window c' src' (.closed l) =>
    c' == c && src' == src && decide (m.w ≤ wn) && decide (wn ≤ m.w + l + s.pt.geometry.mergeGap) &&
      s.sm.marks.all fun x => x.id == m.id || !(decide (m.w + l < x.w) && decide (x.w ≤ wn))
  | _ => false

/-- Of two candidates the one with the greater far edge, among equals the one inserted last (R28). -/
def betterCandidate (s : State) (x y : Mark) : Mark :=
  if farEdge s x < farEdge s y then y
  else if farEdge s y < farEdge s x then x
  else if s.sm.insertion.idxOf x.id ≤ s.sm.insertion.idxOf y.id then y else x

/-- The candidate taken for a merge, if any (R28). -/
def mergeCandidate (s : State) (c : WindowCause) (src : Source) (wn : WebPos) : Option Mark :=
  (s.sm.marks.filter (isCandidate s c src wn)).foldl
    (fun best m => match best with
      | none => some m
      | some b => some (betterCandidate s b m)) none

/-- Place the MAP report TRUNCATED for a window cut off at its largest length (R30). -/
def reportTruncated (m : Mark) (c : WindowCause) (src : Source) (hi : WebPos) (s : State) : State :=
  report (.map (.truncated m.id c src (m.w + windowLengthMax + 1) hi)) s

/-- Carry out a merge into the candidate `e` (R29); the notice is handed to the Order Sequencer (R25, step 5). -/
def mergeInto (e : Mark) (c : WindowCause) (src : Source) (ext : Extent) (wn : WebPos) (unc : Nat) (s : State) :
    State × Bool :=
  match ext with
  | .openEnded =>
    let f := fun (m : Mark) => { m with kind := .window c src .openEnded, uncertainty := max e.uncertainty unc }
    takeNotice (f e) (modMark e.id f s)
  | .closed l =>
    let len := max (farEdge s e - e.w) (wn + l - e.w)
    let kept := min len.toNat windowLengthMax
    let f := fun (m : Mark) => { m with kind := .window c src (.closed kept), uncertainty := max e.uncertainty unc }
    let s := modMark e.id f s
    let s := if windowLengthMax < len.toNat then reportTruncated e c src (e.w + len) s else s
    takeNotice (f e) s

/-- The tier that admits a mark: the number of marks from which on it is refused; none for a joint (R26). -/
def tierOf : MarkKind → Option Nat
  | .window c _ _ => some (if isDefect c then Config.defectTier else Config.processTier)
  | .boundary _ _ _ => some Config.processTier
  | .joint _ => none

/-- Whether the map, as it stands, refuses a mark at its tier (R26). -/
def refusedAtTier (s : State) (k : MarkKind) : Bool :=
  match tierOf k with
  | some t => decide (t ≤ s.sm.marks.length)
  | none => false

/-- The first id from the counter on that no mark in the map holds (R20); one more than the marks are many suffices. -/
def freshId (used : List MarkId) : Nat → MarkId → MarkId
  | 0, n => n
  | f + 1, n => if used.contains n then freshId used f (n + 1) else n

/-- Place a mark in map order: after every mark whose w is at most its own (R25, step 4). -/
def placeMark (m : Mark) : List Mark → List Mark
  | [] => [m]
  | x :: t => if x.w ≤ m.w then x :: placeMark m t else m :: x :: t

/-- Report a refused window (R27). -/
def reportUntracked (c : Claim) (s : State) : State :=
  match c.kind with
  | .window cause src ext =>
    report (.map (.untracked cause src c.w ext s.sm.marks.length ((tierOf c.kind).getD 0))) s
  | _ => s

/-- Give a mark its id and place it in the map (R20; R25, step 4). -/
def admitMark (c : Claim) (unc : Nat) (s : State) : State × Mark :=
  let id := freshId (s.sm.marks.map (·.id)) s.sm.marks.length s.sm.nextId
  let m : Mark := { id := id, w := c.w, kind := c.kind, uncertainty := unc }
  ({ s with sm := { s.sm with
      marks := placeMark m s.sm.marks, insertion := s.sm.insertion ++ [id], nextId := id + 1 } }, m)

/-- The window that would be merged into for this claim (R25, step 2; R28). -/
def claimCandidate (s : State) (c : Claim) : Option (Mark × WindowCause × Source × Extent) :=
  match c.kind with
  | .window cause src ext =>
    if isDefect cause then (mergeCandidate s cause src c.w).map fun e => (e, cause, src, ext) else none
  | _ => none

/-- Steps 1 to 5 of an insertion claim (R25). In CONFIGURING the claim is refused with no report (R18). The flag says that
the notice of step 5 made a compensation addition. -/
def insertCore (c : Claim) (s : State) : State × InsertOutcome × Bool :=
  if !s.me.running then (s, .refused, false)
  else
    let unc := claimUncertainty s c.uncertainty
    match claimCandidate s c with
    | some (e, cause, src, ext) =>
      let r := mergeInto e cause src ext c.w unc s
      (r.1, .merged e.id, r.2)
    | none =>
      if refusedAtTier s c.kind then (reportUntracked c s, .refused, false)
      else
        let r := admitMark c unc s
        let n := takeNotice r.2 r.1
        (n.1, .admitted r.2.id, n.2)

/-! ## Retirement (R38, R39) -/

/-- A retired boundary's plan list entry is removed and counted as a missed trim (R87). -/
def planRetired (id : MarkId) (s : State) : State :=
  if s.cs.plan.any (fun e => e.mark == id) then
    { s with cs := { s.cs with
      plan := s.cs.plan.filter fun e => e.mark != id,
      counters := { s.cs.counters with missedTrims := bump s.cs.counters.missedTrims 1 } } }
  else s

/-- Take a mark out of the map. -/
def dropMark (id : MarkId) (s : State) : State :=
  { s with sm := { s.sm with
    marks := s.sm.marks.filter fun m => m.id != id, insertion := s.sm.insertion.filter fun i => i != id } }

/-- The Order Sequencer removes a mark from its compensation list; its credit stays in the compensation (R39, R50). -/
def dropCredit (id : MarkId) (s : State) : State :=
  { s with os := { s.os with credits := s.os.credits.filter fun c => c.mark != id } }

/-- SC's part in a joint's retirement (R128): the joint reference is cleared and a PENDING splice examined. -/
def jointRetired (ev : State → State) (k : Nat) (s : State) : State :=
  examinePending ev k (modStand k (fun r => { r with jointRef := none }) s)

/-- The notice to the Order Sequencer that the map holds fewer than 122 marks (R39, R52). -/
def noticeRoom (ev : State → State) (s : State) : State :=
  if s.sm.marks.length < Config.processTier then ev s else s

/-- Retire a mark: take it out of the map and hand the notices of R39, in its order. -/
def retire (ev : State → State) (m : Mark) (s : State) : State :=
  let s := dropMark m.id s
  let s := match m.kind with
    | .joint k => jointRetired ev k s
    | _ => s
  let s := examineTracking (noticeRoom ev s)
  let s := dropCredit m.id s
  if m.isBoundary then planRetired m.id s else s

/-- The retirement test (R38). -/
def hasPassed (s : State) (m : Mark) : Bool :=
  !m.isOpen && decide (extentHigh s m < lineCount s - s.pt.geometry.gateOffset)

/-- Make the retirement test for one mark and retire it where it applies (R38). -/
def testRetirement (ev : State → State) (id : MarkId) (s : State) : State :=
  match markOf s id with
  | none => s
  | some m => if hasPassed s m then retire ev m s else s

/-- The retirements of a tally, in map order (R37, R38). -/
def retireAll (ev : State → State) (s : State) : State :=
  (s.sm.marks.map (·.id)).foldl (fun s id => testRetirement ev id s) s

/-- An insertion claim for a window or a joint, whole (R25): the Order Sequencer evaluates at a compensation addition, and
the retirement test is made for an admitted mark. -/
def insertMark (ev : State → State) (c : Claim) (s : State) : State × InsertOutcome :=
  let r := insertCore c s
  let s := if r.2.2 then ev r.1 else r.1
  match r.2.1 with
  | .admitted id => (testRetirement ev id s, r.2.1)
  | _ => (s, r.2.1)

/-! ## Changes in place (R30 to R34) -/

/-- The claim names an open or closed window of its own creator; otherwise it is answered absent (R34). A creator is told by cause
and source (DESIGN CHOICE, log entry 44). -/
def ownWindow (s : State) (id : MarkId) (mine : WindowCause → Source → Bool) :
    Option (Mark × WindowCause × Source × Extent) :=
  match markOf s id with
  | none => none
  | some m =>
    match m.kind with
    | .window c src ext => if mine c src then some (m, c, src, ext) else none
    | _ => none

/-- A close claim (R30): at the window point, or at a stated far edge. The answer is the window's length, or none for absent
(R34). A window already closed is left unchanged. -/
def closeWindow (ev : State → State) (id : MarkId) (mine : WindowCause → Source → Bool) (far : Option WebPos) (s : State) :
    State × Option Nat :=
  match ownWindow s id mine with
  | none => (s, none)
  | some (_, _, _, .closed l) => (s, some l)
  | some (m, c, src, .openEnded) =>
    let edge := far.getD (farEdge s m)
    let len := (edge - m.w).toNat
    let kept := min len windowLengthMax
    let s := modMark id (fun x => { x with kind := .window c src (.closed kept) }) s
    let s := if windowLengthMax < len then reportTruncated m c src edge s else s
    (testRetirement ev id s, some kept)

/-- A shortening claim of the Zone Regulator for a TRANSITION window (R31); an absent one changes nothing (R34). -/
def shortenWindow (id : MarkId) (zone length : Nat) (s : State) : State :=
  match ownWindow s id (fun c src => c == .transition && src == .zone zone) with
  | some (_, c, src, .closed l) => modMark id (fun x => { x with kind := .window c src (.closed (min l length)) }) s
  | _ => s

/-- The Order Sequencer removes a boundary (R33): the answer is the list of its thresholds already dispatched, or none for
absent. The notices concern the map count and the tracking warning. -/
def removeBoundary (ev : State → State) (id : MarkId) (s : State) : State × Option (List Threshold) :=
  match markOf s id with
  | none => (s, none)
  | some m =>
    match m.kind with
    | .boundary _ _ taken => (examineTracking (noticeRoom ev (dropMark id s)), some taken)
    | _ => (s, none)

/-- The Position Tracker's uncertainty claim (R32). -/
def raiseUncertainty (amount : Nat) (s : State) : State :=
  { s with sm := { s.sm with
    marks := s.sm.marks.map fun m => { m with uncertainty := satAdd uncertaintyMax m.uncertainty amount } } }

end Sys2Proof.Machine
end

