-- ==== Sys2Proof/Machine/Zones.lean ====
section
/-! DEFINITION. The Zone Regulator: boundary approaches (R141), ramps (R142 to R144), immediate retargets (R146), grade
writes in force (R147), withdrawals (R148) and standby (R149, R150). -/

namespace Sys2Proof.Machine

/-- The zone target: the value the zone is heading for (R140). -/
def zoneTarget (z : Zone) : Option Int :=
  match z.run with
  | .ramping => z.ramp.map (·.target)
  | .standby => z.returnValue
  | .idle => z.current
  | .steady => z.current

/-- Place a SETPOINT for a zone; the current setpoint takes its value (R151). -/
def placeSetpoint (n : Nat) (v : Int) (s : State) : State :=
  match zoneOf s n with
  | none => s
  | some z =>
    modZone n (fun z => { z with current := some v }) (placeDirective (z.station.getD 0) (.setpoint n z.channel v) s)

/-- The sum of the lengths of the first `k` stages (R143). -/
def stageLengths (stages : List Stage) (k : Nat) : Nat := ((stages.take k).map (·.length)).sum

/-- The sum of the shares of the first `k` stages (R142). -/
def stageShares (stages : List Stage) (k : Nat) : Nat := ((stages.take k).map (·.share)).sum

/-- The value at the end of stage `k`: a + (t − a) × S_k ÷ 1000, the quotient rounded toward a (R142). -/
def stageValue (r : Ramp) (k : Nat) : Int := r.start + ((r.target - r.start) * stageShares r.stages k).tdiv 1000

/-- The highest stage whose beginning the travel has reached (R143). -/
def stageReached (stages : List Stage) (travel : Nat) : Nat :=
  ((List.range stages.length).filter fun i => decide (stageLengths stages i ≤ travel)).length

/-- The travel of a ramp: the line count minus its start line count (R143). -/
def rampTravel (s : State) (r : Ramp) : Nat := s.pt.lineCount - r.startCount

/-- Step a zone's running ramp to the line count of the moment (R143). -/
def stepRamp (n : Nat) (s : State) : State :=
  match (zoneOf s n).bind (·.ramp) with
  | none => s
  | some r =>
    let k := stageReached r.stages (rampTravel s r)
    let s1 := if r.stageIndex < k then
        modZone n (fun z => { z with ramp := some { r with stageIndex := k } }) (placeSetpoint n (stageValue r k) s)
      else s
    if stageLengths r.stages r.stages.length ≤ rampTravel s r then
      modZone n (fun z => { z with ramp := none, run := .steady }) s1
    else s1

/-- Shorten the TRANSITION window of an overtaken ramp to the travel so far (R144, step 3). -/
def shortenRampWindow (n : Nat) (r : Ramp) (s : State) : State :=
  match r.window with
  | some id => shortenWindow id n (rampTravel s r) s
  | none => s

/-- End a running ramp early (R144): bring it up to date, stop it, shorten its window and clear it. The zone is then STEADY
unless its caller says otherwise. -/
def endRampEarly (n : Nat) (s : State) : State :=
  let s := stepRamp n s
  match (zoneOf s n).bind (·.ramp) with
  | none => s
  | some r => modZone n (fun z => { z with ramp := none, run := .steady }) (shortenRampWindow n r s)

/-- Claim a starting ramp's TRANSITION window and keep its id (R142, step 3). -/
def rampWindow (ev : State → State) (n : Nat) (offset : Nat) (stages : List Stage) (s : State) : State :=
  let c : Claim :=
    { kind := .window .transition (.zone n) (.closed (stageLengths stages stages.length)),
      w := boardAt s offset, uncertainty := .exact 0 }
  let r := insertMark ev c s
  match r.2 with
  | .admitted id => modZone n (fun z => { z with ramp := z.ramp.map fun p => { p with window := some id } }) r.1
  | _ => r.1

/-- Start a ramp at a zone from its current setpoint to `t` (R142). A start value that is absent is taken as `t`: SETPOINT
`t` is placed and the zone is STEADY. -/
def startRamp (ev : State → State) (n : Nat) (t : Int) (boundary : Option MarkId) (s : State) : State :=
  match zoneOf s n with
  | none => s
  | some z =>
    match z.current with
    | none => modZone n (fun z => { z with run := .steady }) (placeSetpoint n t s)
    | some a =>
      let p := s.zr.profiles.getD z.profile powerOnProfile
      let r : Ramp := { start := a, target := t, startCount := s.pt.lineCount, stages := p.stages,
                        markTransition := p.markTransition, stageIndex := 1, boundary := boundary, window := none }
      let s := modZone n (fun z => { z with run := .ramping, ramp := some r }) s
      let s := placeSetpoint n (stageValue r 1) s
      if p.markTransition then rampWindow ev n z.offset p.stages s else s

/-- The zone's current setpoint. -/
def zoneCurrent (s : State) (n : Nat) : Option Int := (zoneOf s n).bind (·.current)

/-- A running ramp is ended early and a new one started to `t`, unless `t` is the current setpoint (R144). -/
def overtake (ev : State → State) (n : Nat) (t : Int) (boundary : Option MarkId) (s : State) : State :=
  let s := endRampEarly n s
  if zoneCurrent s n == some t then s else startRamp ev n t boundary s

/-- SETPOINT at once, ending a running ramp first; the zone is STEADY (R141, step 4). -/
def setAtOnce (n : Nat) (v : Int) (s : State) : State :=
  modZone n (fun z => { z with run := .steady }) (placeSetpoint n v (endRampEarly n s))

/-- Step 1 of an approach: the record of it (R141). -/
def recordApproach (id : MarkId) (g : Nat) (z : Zone) : Zone :=
  { z with priorGrade := z.grade, priorTarget := zoneTarget z, lastApproach := some id, grade := some g }

/-- A boundary's approach at a zone (R141). An IDLE zone that finds KEEP becomes STEADY with its current setpoint absent; one that
finds its zone target becomes STEADY as well (R145; DEDUCED, log entry 15). -/
def zoneApproach (ev : State → State) (n : Nat) (id : MarkId) (toOrder : OrderId) (atInsertion : Bool) (s : State) : State :=
  match orderOf s toOrder, zoneOf s n with
  | some o, some z =>
    let s := modZone n (recordApproach id o.grade) s
    match gradeSetpoint s o.grade n with
    | none => if z.run == .idle then modZone n (fun z => { z with run := .steady, current := none }) s else s
    | some v =>
      if zoneTarget z == some v then
        if z.run == .idle then modZone n (fun z => { z with run := .steady }) s else s
      else if z.run == .standby then modZone n (fun z => { z with returnValue := some v }) s
      else if atInsertion || z.run == .idle then setAtOnce n v s
      else overtake ev n v (some id) s
  | _, _ => s

/-- An immediate retarget of a zone (R146). -/
def retarget (ev : State → State) (n : Nat) (t : Int) (s : State) : State :=
  match zoneOf s n with
  | none => s
  | some z =>
    if zoneTarget z == some t then s
    else
      match z.run with
      | .standby => modZone n (fun z => { z with returnValue := some t }) s
      | .idle => s
      | .steady => startRamp ev n t none s
      | .ramping => overtake ev n t none s

/-- Apply a grade record written in RUNNING to the zones it is in effect for, in zone number order (R147). -/
def applyGrade (ev : State → State) (g : Nat) (s : State) : State :=
  (List.range s.zr.zones.length).foldl
    (fun s n =>
      if ((zoneOf s n).bind (·.grade)) == some g then
        match gradeSetpoint s g n with
        | some v => retarget ev n v s
        | none => s
      else s) s

/-- The value a zone returns to at a withdrawal (R148, step 2). -/
def withdrawnValue (s : State) (n : Nat) (z : Zone) : Option Int :=
  match z.priorGrade.bind fun g => gradeSetpoint s g n with
  | some v => some v
  | none => z.priorTarget

/-- The Order Sequencer's withdrawal notice at a zone (R148). A zone in STANDBY or IDLE with no value to return to becomes
STEADY, and its return value stays as it is (DEDUCED and DESIGN CHOICE, log entry 16). -/
def withdrawZone (ev : State → State) (id : MarkId) (n : Nat) (s : State) : State :=
  match zoneOf s n with
  | none => s
  | some z =>
    if z.lastApproach == some id then
      let s := modZone n (fun z => { z with grade := z.priorGrade }) s
      let s := match withdrawnValue s n z with
        | some v => retarget ev n v s
        | none => modZone n (fun z => { z with run := .steady }) (endRampEarly n s)
      modZone n (fun z => { z with lastApproach := none, priorGrade := none, priorTarget := none }) s
    else s

/-- A standby entry claim (R149). -/
def standbyEntry (n : Nat) (s : State) : State :=
  match zoneOf s n with
  | none => s
  | some z =>
    if z.run == .standby then s
    else
      let ret := zoneTarget z
      let s := if z.run == .ramping then endRampEarly n s else s
      let s := modZone n
        (fun z' => { z' with run := .standby, returnValue := if z.run == .idle then none else ret }) s
      placeSetpoint n z.standbySetpoint s

/-- A standby exit claim (R150). A return value taken on the way out becomes absent (DESIGN CHOICE, log entry 56). -/
def standbyExit (n : Nat) (s : State) : State :=
  match zoneOf s n with
  | none => s
  | some z =>
    if z.run == .standby then
      match z.returnValue with
      | some v => modZone n (fun z => { z with run := .steady, returnValue := none }) (placeSetpoint n v s)
      | none => modZone n (fun z => { z with run := if z.grade.isSome then .steady else .idle }) s
    else s

/-- The Zone Regulator takes the new count of a tally: every RAMPING zone is stepped (R9, R143), in zone number order (DESIGN
CHOICE, log entry 64). -/
def zonesNewCount (s : State) : State := (List.range s.zr.zones.length).foldl (fun s n => stepRamp n s) s

end Sys2Proof.Machine
end

