-- ==== Sys2Proof/Machine/Knives.lean ====
section
/-! DEFINITION. The Knife Station Controller: layouts (R72), status changes (R73, R79 to R82), the station query and
assignment (R74, R75), withdrawals (R76), and boundaries at a station (R77, R78). -/

namespace Sys2Proof.Machine

/-- A station is assignable: no served order, and IDLE or READY (R71). -/
def KnifeRecord.assignable (r : KnifeRecord) : Bool := r.served.isEmpty && (r.state == .idle || r.state == .ready)

/-- The station holds this layout (R72). -/
def KnifeRecord.holds (r : KnifeRecord) (l : Layout) : Bool := r.held.map (·.layout) == some l

/-- Place a KNIFE report (R83). Which events concern a boundary is the model's choice (DESIGN CHOICE, log entry 72): LATE and
LATE_END the one the engage names, every other event none. -/
def knifeReport (k : KnifeId) (e : KnifeEvent) (before : KnifeState) (boundary : Option MarkId) (s : State) : State :=
  let r := knifeOf s k
  report (.knife { station := k, event := e, before := before, after := r.state, served := r.served,
                   boundary := boundary }) s

/-- Give a station a layout (R72): SET_LAYOUT is placed, the held layout is replaced, and the state becomes SETTING. -/
def giveLayout (k : KnifeId) (l : Layout) (order : OrderId) (s : State) : State :=
  modKnife k (fun r => { r with state := .setting, held := some ⟨l, order⟩ })
    (direct (knifeRole k) (.setLayout order l) s)

/-- Windows a knife station creates and closes (Table 2-2, R34). -/
def knifeOwns (k : KnifeId) (c : WindowCause) (src : Source) : Bool :=
  (c == .lateSet || c == .knifeFault) && src == .knife k

/-- The web position now at a station's point (R79 to R82). -/
def boardAtKnife (s : State) (k : KnifeId) : WebPos := boardAt s (knifeOffset s k)

/-- Place the ENGAGE a WAITING engage field owes: it becomes PLACED (R80). -/
def serveEngage (k : KnifeId) (s : State) : State :=
  match (knifeOf s k).engage with
  | some e =>
    if e.waiting then
      modKnife k (fun r => { r with engage := some { e with waiting := false } })
        (direct (knifeRole k) (.engage (.at e.w)) s)
    else s
  | none => s

/-- Close the window a station holds open, at a stated far edge or at the window point, and clear it. The answer is the
window's id and length. -/
def closeKnifeWindow (ev : State → State) (k : KnifeId) (far : Option WebPos) (s : State) :
    State × Option (MarkId × Option Nat) :=
  match (knifeOf s k).window with
  | none => (s, none)
  | some win =>
    let id := match win with
      | .late m => m
      | .fault m => m
    let s := modKnife k (fun r => { r with window := none }) s
    let c := closeWindow ev id (knifeOwns k) far s
    (c.1, some (id, c.2))

/-- A window the station still holds is closed before a LATE_SET window is opened, since it holds at most one (R71). No rule
names the far edge: the window is closed at the window point (DEDUCED, log entry 45). -/
def closeHeldWindow (ev : State → State) (k : KnifeId) (s : State) : State := (closeKnifeWindow ev k none s).1

/-- Open a station's LATE_SET window at the web position of its engage field (R80), and report LATE. The state before is the
station's state as the window is opened (DESIGN CHOICE, log entry 49). -/
def openLate (ev : State → State) (k : KnifeId) (s : State) : State :=
  match (knifeOf s k).engage with
  | none => s
  | some e =>
    let unc : ClaimUncertainty := match e.mark with
      | some id => .like id
      | none => .exact 0
    let s := closeHeldWindow ev k s
    let r := insertMark ev { kind := .window .lateSet (.knife k) .openEnded, w := e.w, uncertainty := unc } s
    let word : WindowWord := match r.2 with
      | .admitted id => .mark id
      | .merged id => .mark id
      | .refused => .refused
    let s := modKnife k
      (fun q => match r.2 with
        | .admitted id => { q with window := some (.late id), lateRefused := false }
        | .merged id => { q with window := some (.late id), lateRefused := false }
        | .refused => { q with window := none, lateRefused := true }) r.1
    knifeReport k (.late word e.w) (knifeOf s k).state e.mark s

/-- Engage becomes WAITING with this boundary, or this web position alone (R77, R78, R79, R82). -/
def engageWaits (k : KnifeId) (mark : Option MarkId) (w : WebPos) (s : State) : State :=
  modKnife k (fun r => { r with engage := some ⟨true, mark, w⟩ }) s

/-! ## Query and assignment (R74, R75) -/

/-- The answer to the Order Sequencer's station query (R74). -/
inductive KnifeAnswer where
  | shared
  | station (k : KnifeId)
  | none
deriving DecidableEq, Repr, Inhabited

/-- The first assignable station, A before B, that passes a test. R74 gives that order for any assignable station; between two that
are READY with the layout asked for it names none (DESIGN CHOICE, log entry 71). -/
def firstAssignable (s : State) (p : KnifeRecord → Bool) : Option KnifeId :=
  if s.kc.a.assignable && p s.kc.a then some .a
  else if s.kc.b.assignable && p s.kc.b then some .b
  else none

/-- The station whose served orders list ends with this order (R74). -/
def servingLast (s : State) (id : OrderId) : Option KnifeId :=
  if s.kc.a.served.getLast? == some id then some .a
  else if s.kc.b.served.getLast? == some id then some .b
  else none

/-- The Knife Station Controller's answer to a station query for a layout (R74). A current order that ends no served orders list is
answered as no current order (DESIGN CHOICE, log entry 48). -/
def knifeQuery (s : State) (l : Layout) : KnifeAnswer :=
  match (currentOrder s).bind fun o => servingLast s o.id with
  | some x =>
    let r := knifeOf s x
    if (r.state == .ready || r.state == .engaged) && r.holds l then .shared
    else if (knifeOf s (otherKnife x)).assignable then .station (otherKnife x)
    else .none
  | none =>
    match firstAssignable s (fun r => r.state == .ready && r.holds l) with
    | some k => .station k
    | none =>
      match firstAssignable s (fun _ => true) with
      | some k => .station k
      | none => .none

/-- An assignment claim for the order `n` (R75); `current` is the current order at the query. A named station that is FAULTED is
assigned in FAULTED, and is given no layout before its fault falls (R82; DEDUCED, log entry 67). -/
def knifeAssign (a : KnifeAnswer) (current : Option OrderId) (n : OrderId) (l : Layout) (s : State) : State :=
  match a with
  | .none => s
  | .shared =>
    match current.bind (servingLast s) with
    | some x => modKnife x (fun r => { r with served := r.served ++ [n] }) s
    | none => s
  | .station k =>
    let s := modKnife k (fun r => { r with served := [n] }) s
    let r := knifeOf s k
    if r.state == .faulted || r.state == .ready && r.holds l then s else giveLayout k l n s

/-! ## Boundaries at a station (R77, R78) -/

/-- What a station is to a boundary from C to N (4.4). -/
inductive Relation where
  | fromStation | toStation | shared | neither
deriving DecidableEq, Repr, Inhabited

/-- A station's relation to a boundary (4.4). -/
def relation (r : KnifeRecord) (fromOrder : Option OrderId) (toOrder : OrderId) : Relation :=
  let hasFrom := match fromOrder with
    | some c => r.served.contains c
    | none => false
  let hasTo := r.served.contains toOrder
  if hasFrom && hasTo then .shared else if hasFrom then .fromStation else if hasTo then .toStation else .neither

/-- A boundary's approach to a station (R77). A to-station already ENGAGED is left as it is (DEDUCED, log entry 54). -/
def knifeApproach (ev : State → State) (k : KnifeId) (b : BoundaryRef) (fromOrder : Option OrderId) (toOrder : OrderId)
    (s : State) : State :=
  let r := knifeOf s k
  match relation r fromOrder toOrder with
  | .fromStation =>
    if r.state == .engaged then
      modKnife k (fun r => { r with lift := some b }) (direct (knifeRole k) (.lift (.at b.w)) s)
    else s
  | .toStation =>
    match r.state with
    | .ready =>
      modKnife k (fun r => { r with engage := some ⟨false, some b.mark, b.w⟩ })
        (direct (knifeRole k) (.engage (.at b.w)) s)
    | .engaged => s
    | _ => openLate ev k (engageWaits k (some b.mark) b.w s)
  | .shared => s
  | .neither => s

/-- A boundary's arrival at its from-station (R78). The memory of a refused window ends with the board it was for (log
entry 17). -/
def fromArrival (ev : State → State) (k : KnifeId) (b : BoundaryRef) (c : OrderId) (s : State) : State :=
  let s := modKnife k
    (fun r =>
      let left := r.served.filter fun o => o != c
      { r with served := left, boardPresent := r.boardPresent && !left.isEmpty }) s
  let r := knifeOf s k
  let s := match r.state, r.lift, r.engage with
    | .engaged, none, _ =>
      modKnife k (fun r => { r with lift := some b }) (direct (knifeRole k) (.lift .atOnce) s)
    | .ready, _, some e =>
      if e.waiting then s
      else modKnife k (fun r => { r with engage := none }) (direct (knifeRole k) (.lift .atOnce) s)
    | _, _, _ => s
  let s := modKnife k (fun r => { r with lateRefused := false }) (closeKnifeWindow ev k (some b.w) s).1
  if (knifeOf s k).state == .ready && (knifeOf s k).served.isEmpty then ev s else s

/-- A boundary's arrival at its to-station (R78). A WAITING engage opens no window, whatever made it WAITING (DEDUCED, log entry
50); a READY station whose engage is absent is given none (DESIGN CHOICE, log entry 51). -/
def toArrival (ev : State → State) (k : KnifeId) (b : BoundaryRef) (s : State) : State :=
  let s := modKnife k (fun r => { r with boardPresent := true }) s
  let r := knifeOf s k
  let waiting := (r.engage.map (·.waiting)).getD false
  if r.state == .engaged || r.state == .ready || waiting then s
  else
    let s := engageWaits k (some b.mark) b.w s
    if r.window.isSome then s else openLate ev k s

/-- A boundary's arrival at a station (R78). -/
def knifeArrival (ev : State → State) (k : KnifeId) (b : BoundaryRef) (fromOrder : Option OrderId) (toOrder : OrderId)
    (s : State) : State :=
  match relation (knifeOf s k) fromOrder toOrder, fromOrder with
  | .shared, some c => modKnife k (fun r => { r with served := r.served.filter fun o => o != c }) s
  | .toStation, _ => toArrival ev k b s
  | .fromStation, some c => fromArrival ev k b c s
  | _, _ => s

/-! ## Status changes (R73, R79 to R82) -/

/-- Ready rises (R73, R80). -/
def knifeReadyRises (ev : State → State) (k : KnifeId) (s : State) : State :=
  if (knifeOf s k).state == .setting then
    ev (serveEngage k (modKnife k (fun r => { r with state := .ready }) s))
  else s

/-- Ready falls (R73). -/
def knifeReadyFalls (k : KnifeId) (s : State) : State :=
  if (knifeOf s k).state == .ready then
    modKnife k (fun r => { r with state := .setting, engage := r.engage.map fun e => { e with waiting := true } }) s
  else s

/-- The LATE_SET window of a station ends as its knives are seen down (R80): it is closed at the window point, and LATE_END
is reported. A window no longer in the map is reported by the web position that the engage field held. -/
def endLate (ev : State → State) (k : KnifeId) (before : KnifeState) (e : Option Engage) (s : State) : State :=
  let mark := e.bind (·.mark)
  match (knifeOf s k).window with
  | some (.late id) =>
    let w := ((markOf s id).map (·.w)).getD ((e.map (·.w)).getD 0)
    let c := closeKnifeWindow ev k none s
    match c.2.bind (·.2) with
    | some len => knifeReport k (.lateEnd id w len) before mark c.1
    | none => knifeReport k (.lateEndRefused w (boardAtKnife c.1 k)) before mark c.1
  | _ =>
    if (knifeOf s k).lateRefused then
      knifeReport k (.lateEndRefused ((e.map (·.w)).getD 0) (boardAtKnife s k)) before mark
        (modKnife k (fun r => { r with lateRefused := false }) s)
    else s

/-- Engaged rises (R73, R80). -/
def knifeEngagedRises (ev : State → State) (k : KnifeId) (s : State) : State :=
  let r := knifeOf s k
  if r.state == .idle || r.state == .setting || r.state == .ready then
    endLate ev k r.state r.engage (modKnife k (fun r => { r with state := .engaged, engage := none }) s)
  else s

/-- The from-order named by a boundary in the map (R79). -/
def boundaryFrom (s : State) (id : MarkId) : Option OrderId :=
  (markOf s id).bind fun m => match m.kind with
    | .boundary c _ _ => c
    | _ => none

/-- Lifted rises with LIFT outstanding (R79). -/
def liftDone (ev : State → State) (k : KnifeId) (b : BoundaryRef) (s : State) : State :=
  let c := boundaryFrom s b.mark
  let s := modKnife k
    (fun r =>
      let left := r.served.filter fun o => some o != c
      { r with served := left, lift := none, state := .idle, boardPresent := r.boardPresent && !left.isEmpty }) s
  if (knifeOf s k).served.isEmpty then ev s else s

/-- Lifted rises unasked over served board (R79). -/
def liftUnasked (ev : State → State) (k : KnifeId) (s : State) : State :=
  let point := boardAtKnife s k
  let isReady := (roleWord s (knifeRole k)).getLsbD 0
  let s := modKnife k (fun r => { r with state := if isReady then .ready else .setting }) s
  let s := openLate ev k (engageWaits k none point s)
  let s := knifeReport k (.liftUnasked point) .engaged none s
  if isReady then ev (serveEngage k s) else s

/-- Lifted rises (R73, R79). -/
def knifeLiftedRises (ev : State → State) (k : KnifeId) (s : State) : State :=
  let r := knifeOf s k
  if r.state == .engaged then
    match r.lift with
    | some b => liftDone ev k b s
    | none =>
      if r.served.isEmpty then ev (modKnife k (fun r => { r with state := .idle }) s) else liftUnasked ev k s
  else s

/-- Claim the KNIFE_FAULT window of a station that faulted while ENGAGED (R81). -/
def openKnifeFault (ev : State → State) (k : KnifeId) (s : State) : State × WindowWord :=
  let r := insertMark ev { kind := .window .knifeFault (.knife k) .openEnded, w := boardAtKnife s k, uncertainty := .exact 0 } s
  match r.2 with
  | .admitted id => (modKnife k (fun q => { q with window := some (.fault id) }) r.1, .mark id)
  | .merged id => (modKnife k (fun q => { q with window := some (.fault id) }) r.1, .mark id)
  | .refused => (modKnife k (fun q => { q with window := none }) r.1, .refused)

/-- Fault rises (R81). The KNIFE report follows the window, the stop holder and the hold (DESIGN CHOICE, log entry 55), and
carries no boundary's mark id, also where the engage or the lift names one (DESIGN CHOICE, log entry 72). -/
def knifeFaultRises (ev : State → State) (k : KnifeId) (s : State) : State :=
  let before := (knifeOf s k).state
  match before with
  | .faulted => s
  | .engaged =>
    let s := modKnife k (fun r => { r with state := .faulted, lift := none, engage := none }) s
    if s.me.running then
      let w := openKnifeFault ev k s
      let s := stopClaim .knifeFault (claimStop .knifeFault w.1)
      knifeReport k (.fault w.2 true) before none s
    else knifeReport k (.fault .none false) before none s
  | _ =>
    let s := modKnife k
      (fun r => { r with state := .faulted, engage := r.engage.map fun e => { e with waiting := true } }) s
    knifeReport k (.fault .none false) before none s

/-- The layout of a station's first served order (R82): the order's own, or, where the order has left the queue, the held
layout, which was sent for it or equals its layout, unless the order was assigned in FAULTED (R72, R75; DEDUCED, log entry
52). -/
def servedLayout (s : State) (k : KnifeId) (id : OrderId) : Option Layout :=
  match orderOf s id with
  | some o => some o.layout
  | none => (knifeOf s k).held.map (·.layout)

/-- Fault falls with served orders listed (R82, steps 4 and 5): the first served order's layout is sent again, and board at
the station is marked late. The answer is the layout re-sent. -/
def resendLayout (ev : State → State) (k : KnifeId) (id : OrderId) (s : State) : State × Option HeldLayout :=
  let sent : Option HeldLayout := (servedLayout s k id).map fun l => ⟨l, id⟩
  let s := match sent with
    | some h => giveLayout k h.layout id s
    | none => modKnife k (fun r => { r with state := .setting }) s
  let r := knifeOf s k
  let waiting := (r.engage.map (·.waiting)).getD false
  if r.boardPresent && !waiting then (openLate ev k (engageWaits k none (boardAtKnife s k) s), sent) else (s, sent)

/-- Fault falls (R82). The KNIFE report carries no boundary's mark id, also where the engage names one (DESIGN CHOICE, log
entry 72). -/
def knifeFaultFalls (ev : State → State) (k : KnifeId) (s : State) : State :=
  if (knifeOf s k).state == .faulted then
    let c := match (knifeOf s k).window with
      | some (.fault _) => closeKnifeWindow ev k none s
      | _ => (s, none)
    let closed := c.2.bind fun p => p.2.map fun l => (p.1, l)
    let s := modKnife k (fun r => { r with state := .idle }) c.1
    match (knifeOf s k).served with
    | [] => knifeReport k (.faultEnd closed none) .faulted none (ev s)
    | id :: _ =>
      let r := resendLayout ev k id s
      knifeReport k (.faultEnd closed r.2) .faulted none r.1
  else s

/-! ## Withdrawal (R76), START and RESTART (R85) -/

/-- A withdrawal notice at a station whose records name the boundary (R76). The memory of a refused window goes with the
engage (log entry 17). Where the engage names the boundary, the LATE_SET window the station holds is taken as the boundary's,
whichever event opened it (DESIGN CHOICE, log entry 60). -/
def withdrawKnife (ev : State → State) (id : MarkId) (k : KnifeId) (s : State) : State :=
  let r := knifeOf s k
  let s := if (r.lift.map (·.mark)) == some id then
      modKnife k (fun r => { r with lift := none }) (direct (knifeRole k) (.engage .atOnce) s)
    else s
  match r.engage with
  | none => s
  | some e =>
    if e.mark == some id then
      let s := if e.waiting then s else direct (knifeRole k) (.lift .atOnce) s
      let s := modKnife k (fun r => { r with engage := none, lateRefused := false }) s
      match r.window with
      | some (.late _) => (closeKnifeWindow ev k none s).1
      | _ => s
    else s

/-- The release of an assignment (R76). -/
def knifeRelease (n : OrderId) (s : State) : State :=
  let f := fun (r : KnifeRecord) => { r with served := r.served.filter fun o => o != n }
  modKnife .b f (modKnife .a f s)

/-- START examines a knife station's last status word: the station is FAULTED where it shows fault, and IDLE otherwise (R85,
R195; log entry 26). -/
def knifeStart (k : KnifeId) (s : State) : State :=
  modKnife k (fun r => { r with state := if (roleWord s (knifeRole k)).getLsbD 3 then .faulted else .idle }) s

/-- RESTART at a knife station: LIFT at once where it was ENGAGED, and R85's values. -/
def knifeRestart (k : KnifeId) (s : State) : State :=
  let s' := if (knifeOf s k).state == .engaged then direct (knifeRole k) (.lift .atOnce) s else s
  modKnife k (fun r => { idleKnife with held := r.held }) s'

end Sys2Proof.Machine
end

