-- ==== Sys2Proof/Machine/Stacks.lean ====
section
/-! DEFINITION. The Cut Classifier and Stack Counter apart from the classification of cuts: cut plans (R86, R87), GATE
directives (R97, R98), stacks and transfers (R99 to R106), START and RESTART (R109). -/

namespace Sys2Proof.Machine

/-! ## Cut plans (R86, R87) -/

/-- Place an entry in a plan list kept in ascending order of w (R86). -/
def placePlan (e : PlanEntry) : List PlanEntry → List PlanEntry
  | [] => [e]
  | x :: t => if x.w ≤ e.w then x :: placePlan e t else e :: x :: t

/-- A boundary's approach at the cutoff (R86). A to-order no longer in the queue gives no directive and no entry. -/
def cutoffApproach (b : BoundaryRef) (fromOrder : Option OrderId) (toOrder : OrderId) (s : State) : State :=
  match orderOf s toOrder with
  | none => s
  | some o =>
    let s := direct .cutoff (.cutPlan (.plan b.w o.cutLength)) s
    { s with cs := { s.cs with plan := placePlan ⟨b.mark, b.w, fromOrder, toOrder, o.cutLength⟩ s.cs.plan } }

/-- The Order Sequencer's withdrawal notice for a cutoff approach (R87). -/
def withdrawPlan (id : MarkId) (s : State) : State :=
  match s.cs.plan.find? fun e => e.mark == id with
  | none => s
  | some e =>
    let s := { s with cs := { s.cs with plan := s.cs.plan.filter fun x => x.mark != id } }
    direct .cutoff (.cutPlan (.cancel e.w)) s

/-- Change the cut counters. -/
def modCounters (f : CutCounters → CutCounters) (s : State) : State :=
  { s with cs := { s.cs with counters := f s.cs.counters } }

/-- After a cut, remove every plan list entry at or below the cut's end, each a clean trim when the cut carries the TRIM flag
and its end is the entry's w, and a missed trim otherwise (R87). -/
def prunePlan (e : WebPos) (trim : Bool) (s : State) : State :=
  let gone := s.cs.plan.filter fun x => decide (x.w ≤ e)
  let clean := (gone.filter fun x => trim && decide (x.w = e)).length
  let missed := gone.length - clean
  let s := { s with cs := { s.cs with plan := s.cs.plan.filter fun x => !decide (x.w ≤ e) } }
  modCounters
    (fun c => { c with cleanTrims := bump c.cleanTrims clean, missedTrims := bump c.missedTrims missed }) s

/-! ## The gate (R97, R98) -/

/-- Set the gate plan (R97). -/
def setGate (reject : Bool) (lastChange : Option WebPos) (s : State) : State :=
  { s with cs := { s.cs with gate := ⟨reject, lastChange⟩ } }

/-- Place a GATE directive effective at the sheet's start; it sets the planned state and the last change (R97). -/
def gateAt (reject : Bool) (start : WebPos) (s : State) : State :=
  setGate reject (some start) (direct .gate (.gate reject (.at start)) s)

/-- The cutoff's fault bit rises in RUNNING (R98): GATE REJECT at once, with the last change at the gate's board, and the
previous wc absent. In CONFIGURING nothing changes. -/
def cutoffFaultRises (s : State) : State :=
  if s.me.running then
    let change := boardAt s s.pt.geometry.gateOffset
    let s := setGate true (some change) (direct .gate (.gate true .atOnce) s)
    { s with cs := { s.cs with prevWc := none } }
  else s

/-! ## Stacks and transfers (R99 to R106) -/

/-- Change the stacker record. -/
def modStacker (f : Stacker → Stacker) (s : State) : State :=
  { s with cs := { s.cs with stacker := f s.cs.stacker } }

/-- Place a STACK report for a stack (R107). The transfer position is carried for HEIGHT and ORDER_END. -/
def stackReport (k : Stack) (c : StackClose) (s : State) : State :=
  let position := match c with
    | .height => some s.cs.stacker.position
    | .orderEnd => some s.cs.stacker.position
    | _ => none
  report (.stack { sequence := k.sequence, order := k.order, cuts := k.cuts, sheets := k.cuts * k.lanes, height := k.height,
                   cause := c, position := position, deck := s.cs.stacker.deck.map fun d => (d.order, d.cuts) }) s

/-- Close the current stack with this cause (R101): STACK_TRANSFER, the state TRANSFERRING, the STACK report, the timer. -/
def closeCurrent (c : StackClose) (s : State) : State :=
  match s.cs.stacker.current with
  | none => s
  | some k =>
    let s := direct .stacker (.stackTransfer k.sequence k.lastEnd) s
    let s := modStacker (fun r => { r with transferring := true, position := k.lastEnd }) s
    let s := stackReport k c s
    modStacker (fun r => { r with timer := some s.pt.geometry.transferTimeout }) s

/-- Open a stack for an order with one cut ending at `e` (R99). -/
def openStack (o : Order) (e : WebPos) (s : State) : State × Stack :=
  ({ s with cs := { s.cs with stackCounter := s.cs.stackCounter + 1 } },
   { sequence := s.cs.stackCounter, order := o.id, lanes := o.layout.lanes.length, height := o.stackHeight, cuts := 1,
     lastEnd := e, closePending := none })

/-- Mark the deck stack close-pending; a mark is not replaced by a later one (R102). -/
def markDeck (c : StackClose) (s : State) : State :=
  modStacker
    (fun r => { r with deck := r.deck.map fun d => { d with closePending := some (d.closePending.getD c) } }) s

/-- Count a GOOD sheet of an order ending at `e` into the current stack (R100). -/
def countCurrent (o : Order) (e : WebPos) (s : State) : State :=
  let r := match s.cs.stacker.current with
    | none => openStack o e s
    | some k => (s, { k with cuts := k.cuts + 1, lastEnd := e })
  let s := modStacker (fun q => { q with current := some r.2 }) r.1
  if r.2.cuts == r.2.height then closeCurrent .height s else s

/-- Count a GOOD sheet of an order ending at `e` into the deck stack (R102). -/
def countDeck (o : Order) (e : WebPos) (s : State) : State :=
  let r := match s.cs.stacker.deck with
    | none => openStack o e s
    | some k => (s, { k with cuts := k.cuts + 1, lastEnd := e })
  let s := modStacker (fun q => { q with deck := some r.2 }) r.1
  if r.2.cuts == r.2.height then markDeck .height s else s

/-- A GOOD sheet is counted into a stack (R100, R102). -/
def countSheet (o : Order) (e : WebPos) (s : State) : State :=
  if s.cs.stacker.transferring then countDeck o e s else countCurrent o e s

/-- An order's end closes its stack (R103). -/
def stackOrderEnd (id : OrderId) (s : State) : State :=
  if s.cs.stacker.transferring then
    if (s.cs.stacker.deck.map (·.order)) == some id then markDeck .orderEnd s else s
  else
    if (s.cs.stacker.current.map (·.order)) == some id then closeCurrent .orderEnd s else s

/-- From step 3 of R104: the deck stack, if any, becomes current and is closed at once if close-pending; otherwise the state
becomes BUILDING. -/
def promoteDeck (s : State) : State :=
  let pendingClose := s.cs.stacker.deck.bind (·.closePending)
  let s := modStacker
    (fun r => { r with current := r.deck.map fun d => { d with closePending := none }, deck := none }) s
  match pendingClose with
  | some c => closeCurrent c s
  | none => modStacker (fun r => { r with transferring := false }) s

/-- The stacker's transfer-done bit rises with the faulted flag clear (R104). -/
def transferDone (s : State) : State :=
  if s.cs.stacker.transferring then
    promoteDeck (modStacker (fun r => { r with timer := none, current := none }) s)
  else s

/-- While the faulted flag is set, a change of the stacker's transfer-done or fault bit reads its last status word (R106). -/
def stackerRecovery (s : State) : State :=
  let w := roleWord s .stacker
  if !w.getLsbD 3 && w.getLsbD 0 then
    promoteDeck (modStacker (fun r => { r with faulted := false, current := none }) s)
  else s

/-- The stacker's transfer-done bit changes (R104, R106). -/
def transferDoneChange (rises : Bool) (s : State) : State :=
  if s.cs.stacker.faulted then stackerRecovery s else if rises then transferDone s else s

/-- The stacker's fault bit changes (R106). -/
def stackerFaultChange (s : State) : State := if s.cs.stacker.faulted then stackerRecovery s else s

/-- The transfer timer expires (R105): started again while the line stands short of the gate; otherwise the stacker is
faulted, with its report, stop holder and hold. A stopped timer does not expire (log entry 23). -/
def transferExpiry (s : State) : State :=
  if s.cs.stacker.timer.isNone then s
  else if s.pt.stopped && decide (lineCount s - s.pt.geometry.gateOffset < s.cs.stacker.position) then
    modStacker (fun r => { r with timer := some s.pt.geometry.transferTimeout }) s
  else
    let s := modStacker (fun r => { r with faulted := true, timer := none }) s
    let s := match s.cs.stacker.current with
      | some k => stackReport k .faulted s
      | none => s
    stopClaim .stackerFault (claimStop .stackerFault s)

/-! ## START and RESTART (R109) -/

/-- START at the cutoff and the gate (R109): CUT_PLAN CLEAR and GATE REJECT at once. -/
def cutsStart (s : State) : State :=
  let s := { s with cs := { s.cs with prevWc := none, plan := [] } }
  let s := direct .cutoff (.cutPlan .clear) s
  setGate true none (direct .gate (.gate true .atOnce) s)

/-- Report a stack ABANDONED, if there is one (R109). -/
def abandonStack (k : Option Stack) (s : State) : State :=
  match k with
  | some k => stackReport k .abandoned s
  | none => s

/-- RESTART at CS (R109): both stacks are reported ABANDONED, the current stack first; the stack counter is kept. The manual
names no RESTART value for the transfer position: it is kept (log entry 8). -/
def cutsRestart (s : State) : State :=
  let s := abandonStack s.cs.stacker.deck (abandonStack s.cs.stacker.current s)
  { s with cs := { s.cs with
      lastSeq := none, prevWc := none, plan := [], gate := ⟨true, none⟩,
      stacker := { resetStacker with position := s.cs.stacker.position }, counters := zeroCounters } }

end Sys2Proof.Machine
end

