-- ==== Sys2Proof/Machine/Thresholds.lean ====
section
/-! DEFINITION. Approaches and arrivals of boundaries (R3, R35 to R37): the thresholds of a boundary, their dispatch to the
blocks, the insertion of a boundary with the thresholds already passed (R25, step 6), and the Segment Map at a new count. -/

namespace Sys2Proof.Machine

/-- A threshold with the line count at which it falls (Table 2-4). -/
structure Falling where
  value : Int
  threshold : Threshold
deriving DecidableEq, Repr

/-- The thresholds of a boundary at `w`, in the order of the rows of Table 2-4, zones in zone number order. -/
def boundaryThresholds (s : State) (w : WebPos) : List Falling :=
  let g := s.pt.geometry
  [⟨w, .release⟩] ++
    ((placedZones s).map fun n =>
      ⟨w + zoneOffset s n - ((zoneOf s n).map (·.rampLead)).getD 0, .zone n⟩) ++
    [⟨w + g.knifeAOffset - g.knifeLead, .knifeApproach .a⟩, ⟨w + g.knifeAOffset, .knifeArrival .a⟩,
     ⟨w + g.knifeBOffset - g.knifeLead, .knifeApproach .b⟩, ⟨w + g.knifeBOffset, .knifeArrival .b⟩,
     ⟨w + g.cutoffOffset - g.cutoffLead, .cutoff⟩]

/-- Place a threshold in ascending order of value, after those of equal value (R37). -/
def placeFalling (x : Falling) : List Falling → List Falling
  | [] => [x]
  | y :: t => if y.value ≤ x.value then y :: placeFalling x t else x :: y :: t

/-- Thresholds in ascending order of value; equal values keep their order (R37). -/
def sortFalling (l : List Falling) : List Falling := l.foldl (fun acc x => placeFalling x acc) []

/-- The thresholds of a boundary not yet taken that the line count has reached, in the order they are taken (R35, R37). -/
def reachedThresholds (s : State) (w : WebPos) (taken : List Threshold) : List Threshold :=
  (sortFalling ((boundaryThresholds s w).filter fun f =>
    !taken.contains f.threshold && decide (f.value ≤ lineCount s))).map (·.threshold)

/-- Record a threshold of a boundary as taken (R35). -/
def markTaken (t : Threshold) (m : Mark) : Mark :=
  match m.kind with
  | .boundary a b taken => { m with kind := .boundary a b (taken ++ [t]) }
  | _ => m

/-- Hand one threshold's dispatch to its block (Table 2-4, R36). `release` is the Order Sequencer's taking of a release
arrival (R58). -/
def handThreshold (release : BoundaryRef → Option OrderId → OrderId → State → State) (ev : State → State) (b : BoundaryRef)
    (fromOrder : Option OrderId) (toOrder : OrderId) (atInsertion : Bool) (t : Threshold) (s : State) : State :=
  match t with
  | .release => release b fromOrder toOrder s
  | .zone n => zoneApproach ev n b.mark toOrder atInsertion s
  | .knifeApproach k => knifeApproach ev k b fromOrder toOrder s
  | .knifeArrival k => knifeArrival ev k b fromOrder toOrder s
  | .cutoff => cutoffApproach b fromOrder toOrder s

/-- Take one threshold of a mark: record it and dispatch it, while the mark is in the map and the threshold not taken. -/
def takeThreshold (release : BoundaryRef → Option OrderId → OrderId → State → State) (ev : State → State)
    (atInsertion : Bool) (id : MarkId) (t : Threshold) (s : State) : State :=
  match markOf s id with
  | none => s
  | some m =>
    match m.kind with
    | .boundary fromOrder toOrder taken =>
      if taken.contains t then s
      else handThreshold release ev ⟨id, m.w⟩ fromOrder toOrder atInsertion t (modMark id (markTaken t) s)
    | _ => s

/-- Take the thresholds of one mark that the line count has reached (R37). -/
def takeMarkThresholds (release : BoundaryRef → Option OrderId → OrderId → State → State) (ev : State → State)
    (atInsertion : Bool) (id : MarkId) (s : State) : State :=
  match markOf s id with
  | none => s
  | some m =>
    match m.kind with
    | .boundary _ _ taken =>
      (reachedThresholds s m.w taken).foldl (fun s t => takeThreshold release ev atInsertion id t s) s
    | _ => s

/-- An insertion claim for a boundary, whole (R25): thresholds already passed are taken at once, with the at-insertion flag,
and the retirement test is made. -/
def insertBoundary (release : BoundaryRef → Option OrderId → OrderId → State → State) (ev : State → State) (w : WebPos)
    (fromOrder : Option OrderId) (toOrder : OrderId) (s : State) : State :=
  let r := insertCore { kind := .boundary fromOrder toOrder [], w := w, uncertainty := .exact 0 } s
  match r.2.1 with
  | .admitted id => testRetirement ev id (takeMarkThresholds release ev true id r.1)
  | _ => r.1

/-- The Segment Map takes the new count of a tally (R9, R37): first the thresholds, mark by mark in map order, then the
retirements. -/
def mapNewCount (release : BoundaryRef → Option OrderId → OrderId → State → State) (ev : State → State) (s : State) : State :=
  retireAll ev ((s.sm.marks.map (·.id)).foldl (fun s id => takeMarkThresholds release ev false id s) s)

end Sys2Proof.Machine
end

