-- ==== Sys2Proof/Machine/Operands.lean ====
section
/-! DEFINITION. The operand checks of the requests: group masks (R191), the ranges of each record's fields (R4, R22, R110,
R112, R137, R138, R139, R174) and the validation of orders (R45). -/

namespace Sys2Proof.Machine

/-- The first requirement of a list that is not met gives its detail code. -/
def firstFailure : List (Bool × Detail) → Option Detail
  | [] => none
  | (ok, d) :: t => if ok then firstFailure t else some d

/-- A value in an inclusive range. -/
def inRange (lo hi n : Nat) : Bool := decide (lo ≤ n) && decide (n ≤ hi)

/-- A signed value in an inclusive range. -/
def inRangeInt (lo hi n : Int) : Bool := decide (lo ≤ n) && decide (n ≤ hi)

/-- A signed 16-bit value (00_scope.md, Units). -/
def isSigned16 (n : Int) : Bool := inRangeInt (-32768) 32767 n

/-- An enumerated field holds one of its names. -/
def codedNamed {α : Type} : Coded α → Bool
  | .named _ => true
  | .beyond _ => false

/-- Group `i` is named by a group mask (10.2). -/
def masked (mask : Byte) (i : Nat) : Bool := mask.getLsbD i

/-- A group mask names a group that an item of `n` groups does not have (R191). -/
def maskBeyond (mask : Byte) (n : Nat) : Bool := decide (2 ^ n ≤ mask.toNat)

/-! ## The line geometry record (Table 1-1) -/

/-- The fields of the masked groups are within the ranges of Table 1-1 (R4). -/
def geometryInRange (mask : Byte) (g : Geometry) : Bool :=
  (!masked mask 0 ||
    (inRange 0 250000 g.knifeAOffset && inRange 0 250000 g.knifeBOffset && inRange 0 250000 g.cutoffOffset &&
      inRange 0 250000 g.gateOffset && inRange 5000 60000 g.dPre)) &&
  (!masked mask 1 || (inRange 20 250 g.maxDelta && inRange 5 50 g.tallyInterval)) &&
  (!masked mask 2 || (inRange 100 20000 g.warnLimit && inRange 0 5000 g.mergeGap)) &&
  (!masked mask 3 ||
    (inRange 0 80000 g.knifeLead && inRange 0 80000 g.cutoffLead && inRange 0 3000 g.gateDwell &&
      inRange 0 50 g.shortTolerance && inRange 0 100 g.deckCapacity && inRange 1 60 g.transferTimeout &&
      inRange 60 400 g.minLane && inRange 0 50 g.minTrim))

/-- The record with the masked groups written (R4). -/
def writeGeometry (mask : Byte) (v g : Geometry) : Geometry :=
  let g := if masked mask 0 then
      { g with knifeAOffset := v.knifeAOffset, knifeBOffset := v.knifeBOffset, cutoffOffset := v.cutoffOffset,
               gateOffset := v.gateOffset, dPre := v.dPre }
    else g
  let g := if masked mask 1 then { g with maxDelta := v.maxDelta, tallyInterval := v.tallyInterval } else g
  let g := if masked mask 2 then { g with warnLimit := v.warnLimit, mergeGap := v.mergeGap } else g
  if masked mask 3 then
    { g with knifeLead := v.knifeLead, cutoffLead := v.cutoffLead, gateDwell := v.gateDwell,
             shortTolerance := v.shortTolerance, deckCapacity := v.deckCapacity, transferTimeout := v.transferTimeout,
             minLane := v.minLane, minTrim := v.minTrim }
  else g

/-- The knife lead and the cutoff lead meet their LEAD_LONG requirements (Table 1-2, checks 5 and 6). -/
def geometryLeadsFit (g : Geometry) : Bool :=
  decide (g.knifeLead ≤ g.knifeAOffset + g.dPre) && decide (g.cutoffLead ≤ g.cutoffOffset + g.dPre)

/-! ## Spans, stands, rolls, grades, zones, profiles, stations -/

/-- A reject span's lead and trail are 0–5,000 (R22). -/
def spanInRange (v : Span) : Bool := inRange 0 5000 v.lead && inRange 0 5000 v.trail

/-- The takeup of Table 6-1 fits the role. -/
def takeupFits : Coded PaperRole → Nat → Bool
  | .named .liner, t => inRange 1000 1100 t
  | .named .medium, t => inRange 1100 1700 t
  | .beyond _, _ => false

/-- The fields of a stand's masked groups are within the ranges of Table 6-1 (R110). -/
def standInRange (mask : Byte) (v : StandFields) : Bool :=
  (!masked mask 0 || (takeupFits v.role v.takeup && inRange 1 250000 v.effOffset)) &&
  (!masked mask 1 ||
    (inRange 0 80000 v.spliceLead && inRange 0 500000 v.runOut && inRange 50 500 v.maxSpeed &&
      inRange 1 60 v.accelTimeout && inRange 1 10 v.pasteTimeout))

/-- A stand with the masked groups written (R110). -/
def writeStandFields (mask : Byte) (v : StandFields) (r : Stand) : Stand :=
  let r := if masked mask 0 then
      { r with role := (match v.role with
                 | .named p => p
                 | .beyond _ => r.role), takeup := v.takeup, effOffset := v.effOffset }
    else r
  if masked mask 1 then
    { r with spliceLead := v.spliceLead, runOut := v.runOut, maxSpeed := v.maxSpeed, accelTimeout := v.accelTimeout,
             pasteTimeout := v.pasteTimeout }
  else r

/-- The range checks of ROLL_PREPARE, in their order; an arm outside the two is FIELD_RANGE (R112, case 2). -/
def rollCheck (arm : Coded Arm) (r : RollFields) : Option Detail :=
  firstFailure
    [(inRange 1 4095 r.paper, .paperRange), (inRange 600 2800 r.width, .widthRange),
     (inRange 1 (2 ^ 32 - 1) r.rollId && inRange 1 20000000 r.length && codedNamed arm, .fieldRange)]

/-- The paper codes of a grade record are 1–4095 (R137, check 2). -/
def gradePapersInRange (v : Option Grade) : Bool :=
  match v with
  | none => true
  | some g => g.papers.all fun p => (p.map (inRange 1 4095)).getD true

/-- The fields of a zone's masked groups are within the ranges of Table 7-1 (R138). -/
def zoneInRange (mask : Byte) (v : ZoneFields) : Bool :=
  (!masked mask 0 ||
    (codedNamed v.kind && inRange 1 250000 v.offset && inRange 1 62 v.station && inRange 0 15 v.channel)) &&
  (!masked mask 1 || (inRange 0 80000 v.rampLead && inRange 0 7 v.profile)) &&
  (!masked mask 2 || (inRange 0 250 v.standbyDelay && isSigned16 v.standbySetpoint)) &&
  (!masked mask 3 ||
    (inRangeInt (-32768) 0 v.bandLow && inRangeInt 0 32767 v.bandHigh && isSigned16 v.cutout &&
      inRange 0 500 v.hysteresis && !v.foreignAction))

/-- A zone with the masked groups written; writing PLACE places it (R138). -/
def writeZoneFields (mask : Byte) (v : ZoneFields) (z : Zone) : Zone :=
  let z := if masked mask 0 then
      { z with placed := true, kind := (match v.kind with
                 | .named k => k
                 | .beyond _ => z.kind),
               offset := v.offset, station := some v.station, channel := v.channel }
    else z
  let z := if masked mask 1 then { z with rampLead := v.rampLead, profile := v.profile } else z
  let z := if masked mask 2 then { z with standbyDelay := v.standbyDelay, standbySetpoint := v.standbySetpoint } else z
  if masked mask 3 then
    { z with bandLow := v.bandLow, bandHigh := v.bandHigh, cutout := v.cutout, hysteresis := v.hysteresis,
             lowActions := v.lowActions, highActions := v.highActions, cutoutActions := v.cutoutActions }
  else z

/-- No two placed zones have one station address and reading channel (R138). -/
def readingSourcesUnique (zs : List Zone) : Bool :=
  let sources := (zs.filter (·.placed)).map fun z => (z.station, z.channel)
  sources.length == sources.eraseDups.length

/-- The profile validation checks, in the order of Table 7-2 (R139). -/
def profileCheck (p : Profile) : Option Detail :=
  firstFailure
    [(inRange 2 12 p.stages.length, .stageCount), (p.stages.all fun s => decide (100 ≤ s.length), .stageShort),
     ((p.stages.map (·.share)).sum == 1000, .shareSum), (decide ((p.stages.map (·.length)).sum ≤ 40000), .profileLong),
     (p.stages.all fun s => s.share != 0, .shareZero)]

/-- A station role's value is one of Table 9-1. -/
def roleInRange : Coded Role → Bool
  | .named (.stand k) => inRange 1 5 k
  | .named _ => true
  | .beyond _ => false

/-- The masked fields of a station table entry are within their ranges (R174, check 1). -/
def stationInRange (mask : Byte) : StationForm → Bool
  | .empty => true
  | .fields a r _ => !masked mask 0 || (inRange 1 62 a && roleInRange r)

/-! ## Orders (R45) -/

/-- A list is strictly ascending (Table 3-2, check 9). -/
def strictlyAscending : List Nat → Bool
  | [] => true
  | [_] => true
  | a :: b :: t => decide (a < b) && strictlyAscending (b :: t)

/-- Check 1 of Table 3-2 on the fields of the named groups. -/
def orderFieldsInRange (counts layout grade policy : Bool) (f : OrderFields) : Bool :=
  (!layout || (inRange 1 8 f.layout.lanes.length && f.layout.lanes.all fun l => decide (l.scores.length ≤ 4))) &&
  (!counts || inRange 0 255 f.overrun) && (!grade || inRange 0 31 f.grade) && (!policy || codedNamed f.policy)

/-- The requirements of checks 1 to 5 of Table 3-2 on the fields of the named groups (R63). -/
def orderRanges (counts layout cut grade stack policy : Bool) (f : OrderFields) : List (Bool × Detail) :=
  [(orderFieldsInRange counts layout grade policy f, .fieldRange),
   (!layout || inRange 600 2800 f.layout.boardWidth, .widthRange), (!cut || inRange 400 9000 f.cutLength, .cutRange),
   (!counts || inRange 1 16777215 f.target, .targetRange), (!stack || inRange 5 2000 f.stackHeight, .stackRange)]

/-- Check 11 of Table 3-2: the grade holds a paper code for every configured stand. -/
def gradeCoversStands (s : State) (g : Nat) : Bool :=
  (List.range (standCount s)).all fun i => (gradePaper s g (i + 1)).isSome

/-- The order validation of Table 3-2: the detail code of the first failing check, or none (R45). -/
def orderCheck (s : State) (f : OrderFields) : Option Detail :=
  let l := f.layout
  firstFailure (orderRanges true true true true true true f ++
    [((l.lanes.map (·.width)).sum + l.leftTrim + l.rightTrim == l.boardWidth, .laneSum),
     (l.lanes.all fun x => decide (s.pt.geometry.minLane ≤ x.width), .laneNarrow),
     (decide (s.pt.geometry.minTrim ≤ l.leftTrim) && decide (s.pt.geometry.minTrim ≤ l.rightTrim), .trimNarrow),
     (l.lanes.all fun x => strictlyAscending x.scores, .scoreOrder),
     (l.lanes.all fun x => x.scores.all fun p => decide (5 ≤ p) && decide (p + 5 ≤ x.width), .scoreEdge),
     (gradeCoversStands s f.grade, .gradeMissing)])

/-- The fields of an order record as a request would carry them. -/
def Order.fields (o : Order) : OrderFields :=
  { target := o.target, overrun := o.overrun, layout := o.layout, cutLength := o.cutLength, grade := o.grade,
    stackHeight := o.stackHeight, policy := .named o.policy, holdAfter := o.holdAfter }

end Sys2Proof.Machine
end

