-- ==== Sys2Proof/Machine/Orders.lean ====
section
/-! DEFINITION. The Order Sequencer's commit: planned length (R49), the successor checks (R54), the commit (R55), the held
reason (R56), the release (R58), the first order (R59), the released length (R51), and the evaluation (R52, R53). Inside the
Order Sequencer's own events the evaluations that other blocks' notices call for wait until the event is complete (log entry
6); they are made here with the identity for the evaluation argument. -/

namespace Sys2Proof.Machine

/-- The lane count of an order (R44). -/
def Order.lanes (o : Order) : Nat := o.layout.lanes.length

/-- The planned length of an order with a compensation (R49). -/
def plannedLength (o : Order) (compensation : Nat) : Nat :=
  ceilDiv o.target o.lanes * o.cutLength + o.overrun * o.cutLength + compensation

/-- The compensation list of an order entering FEEDING at `w` (R49, R50): an entry for every mark other than a boundary whose
reject extent overlaps the range from `w` upward. -/
def formCredits (s : State) (o : Order) (w : WebPos) : List Credit :=
  s.sm.marks.filterMap fun m =>
    if w < extentHigh s m then
      (noticeOverlap s w m).map fun ov => ⟨m.id, contribution o.cutLength ov⟩
    else none

/-- An order enters FEEDING at `w` (R49): its planned length and compensation list are formed, unless it was committed
before. -/
def enterFeeding (o : Order) (w : WebPos) (s : State) : State :=
  let credits := if o.committedBefore then [] else formCredits s o w
  let comp := (credits.map (·.amount)).sum
  let planned := if o.committedBefore then o.planned else some (plannedLength o comp)
  let s := modOrder o.id (fun x => { x with feed := .feeding, startW := some w, planned := planned }) s
  { s with os := { s.os with compensation := comp, credits := credits } }

/-- The paper a stand's active arm holds differs from what the order's grade asks of it; an EMPTY arm differs (R54). -/
def standDiffers (s : State) (o : Order) (k : Nat) : Bool :=
  match (standOf s k).bind (·.active) with
  | none => true
  | some roll => gradePaper s o.grade k != some roll.paper

/-- The differing stands of an order, in stand number order (R54). -/
def differingStands (s : State) (o : Order) : List Nat :=
  ((List.range (standCount s)).map (· + 1)).filter fun k => standDiffers s o k

/-- The first PAPER condition that a differing stand fails (R54, check 2). -/
def paperFault (s : State) (o : Order) (k : Nat) : Option PaperFault :=
  match standOf s k with
  | none => some .noStandby
  | some r =>
    match r.standby.roll with
    | none => some .noStandby
    | some roll =>
      if !r.standby.isReady then some .notReady
      else if gradePaper s o.grade k != some roll.paper then some .paperCode
      else if roll.width < o.layout.boardWidth then some .rollNarrow
      else if r.splice.state != .idle then some .spliceBusy
      else none

/-- The first successor check the queued head fails, with its detail (R54). -/
def successorFault (s : State) (n : Order) : Option HeldReason :=
  match orderCheck s n.fields with
  | some d => some (.invalid d)
  | none =>
    match (differingStands s n).findSome? fun k => (paperFault s n k).map fun f => HeldReason.paper k f with
    | some r => some r
    | none =>
      if knifeQuery s n.layout == .none then some (.knife s.kc.a.state s.kc.b.state)
      else if Config.processTier ≤ s.sm.marks.length then some (.mapFull s.sm.marks.length)
      else none

/-- Failed successor checks with a reason and detail other than the held one set it and place COMMIT_HELD (R56). With no current
order (R59) the report carries 0 as released and planned length (DESIGN CHOICE, log entry 42). -/
def holdCommit (r : HeldReason) (n : Order) (s : State) : State :=
  if s.os.heldReason == some r then s
  else
    let c := currentOrder s
    let released := (c.map (·.released)).getD 0
    let planned := (c.bind (·.planned)).getD 0
    let s := { s with os := { s.os with heldReason := some r } }
    report (.commitHeld { current := c.map (·.id), head := n.id, reason := r, released := released, planned := planned,
                          beyond := released - planned }) s

/-- The held reason becomes none (R56). -/
def clearHeld (s : State) : State := { s with os := { s.os with heldReason := none } }

/-- In SINGLE, the mode becomes HOLD with hold cause SINGLE_DONE (R55, R59). -/
def singleDone (s : State) : State :=
  if s.os.mode == .single then { s with os := { s.os with mode := .hold, holdCause := .singleDone } } else s

/-- Claim a planned splice at each of these stands, for this order and target (R55, R59), in the order of the list, which is
stand number order (DESIGN CHOICE, log entry 64). -/
def claimSplices (n : Order) (w : WebPos) (stands : List Nat) (s : State) : State :=
  stands.foldl
    (fun s k => plannedClaim id k w ((gradePaper s n.grade k).getD 0) n.layout.boardWidth s) s

/-- A boundary's arrival at the release point is a release: it leads from the COMMITTED current order to the NEXT order
(R58). -/
def isRelease (s : State) (fromOrder : Option OrderId) (toOrder : OrderId) : Bool :=
  match currentOrder s, nextOrder s with
  | some c, some n => c.feed == .committed && fromOrder == some c.id && n.id == toOrder
  | _, _ => false

/-- A release arrival (R58): at a release the COMMITTED order becomes FED and the NEXT order FEEDING, and a feed-start notice
is given. Any other release arrival changes nothing. The evaluation that follows is its caller's. -/
def releaseArrival (b : BoundaryRef) (fromOrder : Option OrderId) (toOrder : OrderId) (s : State) : State :=
  match currentOrder s, nextOrder s with
  | some c, some n =>
    if isRelease s fromOrder toOrder then
      let s := modOrder c.id
        (fun o => { o with feed := .fed, released := (o.endW.getD 0 - o.startW.getD 0).toNat }) s
      let s := clearHeld (enterFeeding n b.w s)
      { s with me := { s.me with feedStarts := s.me.feedStarts ++ [n.id] } }
    else s
  | _, _ => s

/-- The end w a commit sets (R55, step 1). -/
def commitEnd (s : State) (c : Order) : WebPos :=
  webPos (max (c.startW.getD 0 + c.planned.getD 0) (lineCount s + s.pt.geometry.dPre))

/-- Steps 1 to 3 of a commit (R55): the end w, the planned length at a first commit, the feed states. -/
def fixEnd (c n : Order) (e : WebPos) (s : State) : State :=
  let s := modOrder c.id
    (fun o => { o with
      endW := some e, feed := .committed, committedBefore := true,
      planned := if o.committedBefore then o.planned else some (e - o.startW.getD 0).toNat }) s
  let s := modOrder n.id (fun o => { o with feed := .next }) s
  { s with os := { s.os with credits := [] } }

/-- A commit of the FEEDING current order `c` with the queued head `n` (R55). -/
def commit (c n : Order) (s : State) : State :=
  let answer := knifeQuery s n.layout
  let stands := differingStands s n
  let e := commitEnd s c
  let s := claimSplices n e stands (fixEnd c n e s)
  let s := knifeAssign answer (some c.id) n.id n.layout s
  let s := insertBoundary releaseArrival id e (some c.id) n.id s
  clearHeld (singleDone s)

/-- The start of the first order `n` (R59). The feed-start notice is given; the evaluation of its entry to FEEDING is its
caller's. -/
def startFirstOrder (n : Order) (s : State) : State :=
  let answer := knifeQuery s n.layout
  let stands := differingStands s n
  let w := webPos (lineCount s)
  let s := claimSplices n w stands (enterFeeding n w s)
  let s := knifeAssign answer none n.id n.layout s
  let s := insertBoundary releaseArrival id w none n.id s
  let s := clearHeld (singleDone s)
  { s with me := { s.me with feedStarts := s.me.feedStarts ++ [n.id] } }

/-- The commit is due: the released length is at least the planned length minus D_pre (R53). -/
def commitDue (s : State) (c : Order) : Bool := decide (c.planned.getD 0 ≤ c.released + s.pt.geometry.dPre)

/-- An evaluation with a FEEDING current order (R53 to R55). -/
def evaluateCommit (s : State) : State :=
  if !s.me.running then s
  else
    match currentOrder s with
    | none => s
    | some c =>
      if c.feed != .feeding || !commitDue s c || s.os.mode == .hold then s
      else
        match queuedHead s with
        | none => s
        | some n =>
          if c.holdAfter then
            let s := modOrder c.id (fun o => { o with holdAfter := false }) s
            { s with os := { s.os with mode := .hold, holdCause := .holdAfter } }
          else
            match successorFault s n with
            | some r => holdCommit r n s
            | none => commit c n s

/-- An evaluation with no order in FEEDING or COMMITTED (R59). -/
def evaluateFirst (s : State) : State :=
  if !s.me.running || (currentOrder s).isSome || s.os.mode == .hold then s
  else
    match queuedHead s with
    | none => s
    | some n =>
      match successorFault s n with
      | some r => holdCommit r n s
      | none => startFirstOrder n s

/-- The evaluation (R52) as a held request of the trigger table brings it about: a feed-start notice it gives is matched once
the firing is complete (R201). -/
def evaluateHeld (s : State) : State := evaluateCommit (evaluateFirst s)

/-- The Order Sequencer takes the new count of a tally: the released length of the current order (R51). -/
def ordersNewCount (s : State) : State :=
  match currentOrder s with
  | none => s
  | some c =>
    let reach := match c.endW with
      | some e => min (lineCount s) e
      | none => lineCount s
    modOrder c.id (fun o => { o with released := (reach - o.startW.getD 0).toNat }) s

end Sys2Proof.Machine
end

