-- ==== Sys2Proof/Machine/Triggers.lean ====
section
/-! DEFINITION. Replies (R189), the rules of the requests a trigger entry may hold (R60, R66, R118, R161, R198), the firing of
entries (R201, R202), and with it the Order Sequencer's evaluation as every event outside a firing makes it (R52). -/

namespace Sys2Proof.Machine

/-! ## Replies (R189) -/

/-- An accepted request with no answer body. -/
def taken : Reply := .accepted .none

/-- A refusal with detail code 0 and no subject. -/
def refusal (r : Reason) : Reply := .refused r .none .none

/-- A refusal with PARAMETER and a detail code. -/
def badParameter (d : Detail) : Reply := .refused .parameter d .none

/-- A refusal with PARAMETER and FIELD_RANGE. -/
def outOfRange : Reply := badParameter .fieldRange

/-- The reply is a refusal. -/
def Reply.isRefused : Reply → Bool
  | .refused _ _ _ => true
  | .accepted _ => false

/-! ## The rules of the requests that may be held -/

/-- Set the mode and the hold cause (R60). -/
def setMode (m : Mode) (c : HoldCause) (s : State) : State := { s with os := { s.os with mode := m, holdCause := c } }

/-- The hold cause a MODE request leaves (R60). -/
def modeCause : Mode → HoldCause
  | .hold => .operator
  | .single => .none
  | .auto => .none

/-- MODE (R60). -/
def ruleMode (ev : State → State) (m : Coded Mode) (s : State) : State × Reply :=
  match m with
  | .named x => (ev (setMode x (modeCause x) s), taken)
  | .beyond _ => (s, outOfRange)

/-- SPLICE_NOW (R118). -/
def ruleSpliceNow (ev : State → State) (k : Nat) (s : State) : State × Reply :=
  if !s.me.running then (s, refusal .wrongState)
  else
    match standOf s k with
    | none => (s, refusal .notFound)
    | some r =>
      if r.splice.state != .idle then (s, refusal .inUse)
      else
        (makePending ev k
          (fun p => { p with kind := some .manual, target := some .now, boundaryW := none, paper := none, width := none,
                             pulled := false }) s, taken)

/-- MARK (R198). -/
def ruleMark (ev : State → State) (w : WebPos) (length : Nat) (s : State) : State × Reply :=
  if !s.me.running then (s, refusal .wrongState)
  else if windowLengthMax < length then (s, outOfRange)
  else
    let r := insertMark ev { kind := .window .operator .operator (.closed length), w := w, uncertainty := .exact 0 } s
    match r.2 with
    | .admitted id => (r.1, .accepted (.mark id false))
    | .merged id => (r.1, .accepted (.mark id true))
    | .refused => (r.1, .refused .full .none (.marks s.sm.marks.length))

/-- The order queue with one QUEUED order moved to the queued head (R66). -/
def moveToFront (o : Order) (orders : List Order) : List Order :=
  (orders.filter fun x => x.feed != .queued) ++ [o] ++ (orders.filter fun x => x.feed == .queued && x.id != o.id)

/-- ORDER_FRONT (R66). -/
def ruleOrderFront (ev : State → State) (id : OrderId) (s : State) : State × Reply :=
  match orderOf s id with
  | none => (s, refusal .notFound)
  | some o =>
    if o.feed != .queued then (s, refusal .inUse)
    else (ev { s with os := { s.os with orders := moveToFront o s.os.orders } }, taken)

/-- LATCH_CLEAR (R161). -/
def ruleLatchClear (n : Nat) (ls : LevelSet) (s : State) : State × Reply :=
  if Config.zoneCapacity ≤ n || ls.foreign then (s, outOfRange)
  else if !((zoneOf s n).map (·.placed)).getD false then (s, refusal .notFound)
  else
    let t := tripOf s n
    let low := ls.low && t.latched.low && t.live.low
    let high := ls.high && t.latched.high && t.live.high
    let cutout := ls.cutout && t.latched.cutout && t.live.cutout
    let s := modTrip n
      (fun t => { t with latched :=
        ⟨if ls.low then t.latched.low && t.live.low else t.latched.low,
         if ls.high then t.latched.high && t.live.high else t.latched.high,
         if ls.cutout then t.latched.cutout && t.live.cutout else t.latched.cutout⟩ }) s
    if low || high || cutout then (s, .refused .stillActive .none (.levels low high cutout)) else (s, taken)

/-! ## Firing (R201, R202) -/

/-- A held request that the panel source may not make (R188, check 3). -/
def panelForbidsHeld : HeldBody → Bool
  | .mode (.named .single) => true
  | .mode (.named .auto) => true
  | .orderFront _ => true
  | .other c => [5, 6, 8, 9, 10, 11].contains c
  | _ => false

/-- A held request is taken as its source's request (R202, step 2): the panel restriction, then the request's own rule. -/
def executeHeld (ev : State → State) (src : MgmtSource) (b : HeldBody) (s : State) : State × Reply :=
  if src == .panel && panelForbidsHeld b then (s, refusal .notPermitted)
  else
    match b with
    | .mode m => ruleMode ev m s
    | .spliceNow k => ruleSpliceNow ev k s
    | .mark w l => ruleMark ev w l s
    | .orderFront o => ruleOrderFront ev o s
    | .latchClear n ls => ruleLatchClear n ls s
    | .other _ => (s, badParameter .notTriggerable)

/-- The entry of the trigger table at an index. -/
def triggerAt (s : State) (i : Nat) : Option TriggerEntry := (s.me.triggers[i]?).join

/-- Put an entry, or the empty form, at an index of the trigger table. -/
def setTrigger (i : Nat) (e : Option TriggerEntry) (s : State) : State :=
  { s with me := { s.me with triggers := s.me.triggers.set i e } }

/-- The entries of a group tag with their indices, in index order. -/
def groupEntries (s : State) (tag : Nat) : List (Nat × TriggerEntry) :=
  (List.range s.me.triggers.length).filterMap fun i =>
    match triggerAt s i with
    | some e => if e.tag == tag then some (i, e) else none
    | none => none

/-- Empty the entries at these indices. -/
def removeTriggers (is : List Nat) (s : State) : State := is.foldl (fun s i => setTrigger i none s) s

/-- Place a TRIGGER report (R202). -/
def triggerReport (i : Nat) (e : TriggerEntry) (o : TriggerOutcome) (r : Option Reply) (s : State) : State :=
  report (.trigger { index := i, entry := e, outcome := o, reply := r }) s

/-- An entry fires (R202): removal, execution, cascade, report. -/
def fireEntry (i : Nat) (e : TriggerEntry) (s : State) : State :=
  let x := executeHeld evaluateHeld e.source e.held (setTrigger i none s)
  if x.2.isRefused then
    let gone := if e.tag == 0 then [] else groupEntries x.1 e.tag
    let s := removeTriggers (gone.map (·.1)) x.1
    let o : TriggerOutcome :=
      if gone.isEmpty then .refused else .broken (gone.map fun g => (g.1, g.2.trigger, g.2.held.code))
    triggerReport i e o (some x.2) s
  else triggerReport i e .done (some x.2) x.1

/-- Match the table against one event: the entries fire one after the other in index order, and a feed-start notice that a
firing brings about is matched once that firing is complete (R201). The first argument bounds the nesting: each level fires
an entry, and the table holds 8. -/
def matchEvent : Nat → (Trigger → Bool) → State → State
  | 0, _, s => s
  | f + 1, p, s =>
    (List.range Config.triggerCapacity).foldl
      (fun s i =>
        match triggerAt s i with
        | none => s
        | some e =>
          if p e.trigger then
            let s := fireEntry i e s
            s.me.feedStarts.foldl (fun s id => matchEvent f (fun t => t == .feedStart id) s)
              { s with me := { s.me with feedStarts := [] } }
          else s) s

/-- Hand the Management Engine an event of the trigger table, in RUNNING (R201). -/
def handEvent (p : Trigger → Bool) (s : State) : State :=
  if s.me.running then matchEvent (Config.triggerCapacity + 1) p s else s

/-- Hand the Management Engine the feed-start notices given and not yet matched (R58, R59, R201). -/
def handFeedStarts (s : State) : State :=
  s.me.feedStarts.foldl (fun s id => handEvent (fun t => t == .feedStart id) s)
    { s with me := { s.me with feedStarts := [] } }

/-- The evaluation (R52): with no current order the first-order start, with its feed-start notice; then, for a current order,
the commit. A first order's entry to FEEDING is thereby followed by its own evaluation. -/
def evaluate (s : State) : State := evaluateCommit (handFeedStarts (evaluateFirst s))

/-- The Order Sequencer takes a release arrival at a tally (R58): the release, its feed-start notice, and the evaluation that
follows. -/
def takeRelease (b : BoundaryRef) (fromOrder : Option OrderId) (toOrder : OrderId) (s : State) : State :=
  if isRelease s fromOrder toOrder then evaluate (handFeedStarts (releaseArrival b fromOrder toOrder s)) else s

end Sys2Proof.Machine
end

