-- ==== Sys2Proof/Machine/Splices.lean ====
section
/-! DEFINITION. The Splice Controller's events: charges and their examinations (R114, R115, R117, R126), completions (R124,
R125), mismatch windows (R127), faults and timeouts (R129, R130), status changes (R111, R122), aborts and cancellations (R131,
R132), rolls (R112, R113), reports (R133) and RESTART (R135). The argument `ev` is the Order Sequencer's evaluation. -/

namespace Sys2Proof.Machine

/-! ## Reports (R133) -/

/-- The splice a report tells of: a splice in FAULT or IDLE is not in progress, and gives no kind and no target. -/
def inProgress (p : Splice) : Splice :=
  match p.state with
  | .idle => { idleSplice with state := .idle }
  | .fault => { idleSplice with state := .fault }
  | _ => p

/-- Place a SPLICE report for the stand record `r` as it stood before the event (R133). -/
def spliceReport (k : Nat) (r : Stand) (o : SpliceOutcome) (f : Option SpliceFault) (offset : Option Nat)
    (c : Option SpliceCompletion) (s : State) : State :=
  let p := inProgress r.splice
  report (.splice { stand := k, role := r.role, kind := p.kind, outcome := o, before := r.splice.state, target := p.target,
                    boundaryW := p.boundaryW, pulled := p.pulled, fault := f, offset := offset, completion := c }) s

/-! ## Mismatch windows (R125, R127) -/

/-- The uncertainty of a GRADE_MISMATCH claim: that of the BOUNDARY in the map whose w equals w_b, else 0 (R125). -/
def boundaryUncertainty (s : State) (w : WebPos) : ClaimUncertainty :=
  match s.sm.marks.find? fun m => m.isBoundary && m.w == w with
  | some m => .like m.id
  | none => .exact 0

/-- The windows a stand creates (Table 2-2, R34). -/
def standOwns (k : Nat) (c : WindowCause) (src : Source) : Bool := c == .gradeMismatch && src == .stand k

/-- A PLANNED splice that ends without a joint opens its mismatch window at w_b, unless the stand holds one (R127). -/
def openMismatch (ev : State → State) (k : Nat) (s : State) : State :=
  match standOf s k with
  | none => s
  | some r =>
    if r.splice.kind == some .planned && r.mismatch.isNone then
      let w := r.splice.boundaryW.getD 0
      let c : Claim :=
        { kind := .window .gradeMismatch (.stand k) .openEnded, w := w, uncertainty := boundaryUncertainty s w }
      let x := insertMark ev c s
      match x.2 with
      | .admitted id => modStand k (fun r => { r with mismatch := some ⟨id, w⟩ }) x.1
      | _ => x.1
    else s

/-- Close the stand's mismatch window at a stated far edge; it becomes absent whatever the answer (R124, R128, R132). -/
def closeMismatch (ev : State → State) (k : Nat) (far : WebPos) (s : State) : State :=
  match (standOf s k).bind (·.mismatch) with
  | none => s
  | some b => modStand k (fun r => { r with mismatch := none }) (closeWindow ev b.mark (standOwns k) (some far) s).1

/-- The length recorded for a closed GRADE_MISMATCH window (Table 2-1; log entry 34). -/
def windowLength (d : Nat) : Nat := if d ≤ windowLengthMax then d else (Config.windowBeyond d).toNat

/-- The outcome of a completion, and for a PLANNED splice the window of R125. -/
def plannedOutcome (ev : State → State) (k : Nat) (p : Splice) (wj : WebPos) (s : State) :
    State × SpliceOutcome × WindowWord :=
  if p.kind == some .planned then
    let wb := p.boundaryW.getD 0
    if wj = wb then (s, .onTime, .none)
    else
      let c : Claim :=
        { kind := .window .gradeMismatch (.stand k) (.closed (windowLength (wj - wb).natAbs)), w := min wj wb,
          uncertainty := boundaryUncertainty s wb }
      let x := insertMark ev c s
      let word : WindowWord := match x.2 with
        | .admitted id => .mark id
        | .merged id => .mark id
        | .refused => .refused
      (x.1, if wb < wj then .late else .early, word)
  else (s, .done, .none)

/-! ## Completion (R124) and owed swaps (R135) -/

/-- The arm swap (R124, step 5): the standby roll becomes the active roll at its full length, with carry 0. -/
def swapArms (r : Stand) : Stand :=
  { r with active := r.standby.roll.map fun x => { x with remaining := x.length }, carry := 0, standby := .empty }

/-- What a completion report says of the rolls (R133); 0 stands for an arm that held none (DESIGN CHOICE, log entry 33). -/
def completionOf (r : Stand) (joint : Option (WebPos × MarkId)) (word : WindowWord) : SpliceCompletion :=
  { joint := joint, butt := (r.active.map (·.remaining)).getD 0, oldRoll := (r.active.map (·.rollId)).getD 0,
    newRoll := standbyRollId r, window := word }

/-- Claim the JOINT of a completion; the joint reference names it while it is in the map (R124, step 2). -/
def claimJoint (ev : State → State) (k : Nat) (wj : WebPos) (s : State) : State × Option MarkId :=
  let x := insertMark ev { kind := .joint k, w := wj, uncertainty := .exact 0 } s
  match x.2 with
  | .admitted id =>
    if (markOf x.1 id).isSome then (modStand k (fun r => { r with jointRef := some id }) x.1, some id) else (x.1, some id)
  | _ => (x.1, none)

/-- A paste-done rising in PASTING with offset `f` completes the splice (R124). -/
def completeSplice (ev : State → State) (k f : Nat) (r : Stand) (s : State) : State :=
  let wj := webPos (lineCount s + f - r.effOffset)
  let s := modSplice k (fun p => { p with pasteTimer := none }) s
  let j := claimJoint ev k wj s
  let s := closeMismatch ev k wj j.1
  let o := plannedOutcome ev k r.splice wj s
  let c := completionOf r (j.2.map fun id => (wj, id)) o.2.2
  let s := removeSlow k (modStand k swapArms o.1)
  let s := spliceReport k r o.2.1 none none (some c) (modSplice k (fun _ => idleSplice) s)
  ev (handEvent (fun t => t == .spliceDone k) s)

/-- A paste-done rising with swap owed true (R135): the arms are swapped with no joint. -/
def completeOwed (ev : State → State) (k : Nat) (r : Stand) (s : State) : State :=
  let s := modStand k (fun x => { swapArms x with splice := { x.splice with swapOwed := false, pasteTimer := none } }) s
  ev (spliceReport k r .abandoned none none (some (completionOf r none .none)) s)

/-- The paste-done bit rises with the offset of the STATE frame (R124, R130, R135). -/
def pasteDoneRises (ev : State → State) (k f : Nat) (s : State) : State :=
  match standOf s k with
  | none => s
  | some r =>
    if r.splice.state == .pasting then completeSplice ev k f r s
    else if r.splice.swapOwed then completeOwed ev k r s
    else spliceReport k r .unexpected none (some f) none s

/-! ## WEB_OUT, faults and timeouts (R115, R129, R130) -/

/-- The splice is FAULT, with both timers stopped; its other fields keep their values (log entry 18). -/
def faultSplice (p : Splice) : Splice := { p with state := .fault, accelTimer := none, pasteTimer := none }

/-- Place ABORT where the stand is accelerating or matched (R115, R131, R132, R135). -/
def abortIfRunning (k : Nat) (r : Stand) (s : State) : State :=
  if r.splice.state == .accelerating || r.splice.state == .matched then directStand k .abort s else s

/-- The WEB_OUT handling (R115). -/
def webOut (ev : State → State) (k : Nat) (s : State) : State :=
  match standOf s k with
  | none => s
  | some r =>
    let busy := r.splice.state != .idle && r.splice.state != .fault
    let s := if busy then openMismatch ev k (removeSlow k (abortIfRunning k r s)) else s
    let s := claimStop .webOut (modStand k (fun r => { r with active := none, carry := 0 }) s)
    let s := spliceReport k r .webOut none none none (modSplice k faultSplice s)
    if r.splice.state == .fault then s else ev s

/-- A splice whose stand's active roll has nothing left (R115). -/
def ranOut (r : Stand) : Bool := (r.active.map fun x => x.remaining == 0).getD false

/-- A timer expiry or a stand fault ends the splice as a fault (R129, R130); a paste that was awaited on an ended roll is
followed by the WEB_OUT handling. -/
def endAsFault (ev : State → State) (k : Nat) (abort : Bool) (f : SpliceFault) (s : State) : State :=
  match standOf s k with
  | none => s
  | some r =>
    let s := if abort then directStand k .abort s else s
    let s := openMismatch ev k (removeSlow k s)
    let s := spliceReport k r .faulted (some f) none none (modSplice k faultSplice s)
    ev (if r.splice.state == .pasting && ranOut r then webOut ev k s else s)

/-- The accel timer of a stand expires (R129). A stopped timer does not expire (log entry 23). -/
def accelExpiry (ev : State → State) (k : Nat) (s : State) : State :=
  match standOf s k with
  | none => s
  | some r => if r.splice.accelTimer.isSome then endAsFault ev k true .accelTimer s else s

/-- The paste timer of a stand expires (R129, R135). A stopped timer does not expire (log entry 23). -/
def pasteExpiry (ev : State → State) (k : Nat) (s : State) : State :=
  match standOf s k with
  | none => s
  | some r =>
    if r.splice.pasteTimer.isNone then s
    else if r.splice.swapOwed then
      spliceReport k r .faulted (some .pasteTimer) none none
        (modSplice k (fun p => { p with swapOwed := false, pasteTimer := none }) s)
    else endAsFault ev k true .pasteTimer s

/-- The stand's fault bit rises (R130). -/
def standFaultRises (ev : State → State) (k : Nat) (s : State) : State :=
  match standOf s k with
  | none => s
  | some r =>
    match r.splice.state with
    | .idle => s
    | .fault => s
    | .pending => endAsFault ev k false .stand s
    | .armed => endAsFault ev k false .stand s
    | _ => endAsFault ev k true .stand s

/-- The stand's fault bit falls (R130): a splice in FAULT becomes IDLE. -/
def standFaultFalls (ev : State → State) (k : Nat) (s : State) : State :=
  match standOf s k with
  | none => s
  | some r => if r.splice.state == .fault then ev (modSplice k (fun _ => idleSplice) s) else s

/-! ## Standby-ready and speed-matched (R111, R121, R122) -/

/-- The standby-ready bit rises (R111, R120). -/
def standbyReadyRises (ev : State → State) (k : Nat) (s : State) : State :=
  match standOf s k with
  | none => s
  | some r =>
    match r.standby with
    | .prepared roll => examinePending ev k (ev (modStand k (fun r => { r with standby := .ready roll }) s))
    | _ => s

/-- The target of a splice that returns from ARMED to PENDING (R121): a *now* target becomes *now* again. -/
def returnedTarget (p : Splice) : Option Target :=
  if p.kind == some .planned && !p.pulled then p.target else some .now

/-- The standby-ready bit falls (R111, R121). -/
def standbyReadyFalls (ev : State → State) (k : Nat) (s : State) : State :=
  match standOf s k with
  | none => s
  | some r =>
    match r.standby with
    | .ready roll =>
      let s := ev (modStand k (fun r => { r with standby := .prepared roll }) s)
      if r.splice.state == .armed then
        ev (removeSlow k (modSplice k (fun p => { p with state := .pending, target := returnedTarget p }) s))
      else s
    | _ => s

/-- The speed-matched bit rises (R122). -/
def speedMatchedRises (ev : State → State) (k : Nat) (s : State) : State :=
  match standOf s k with
  | none => s
  | some r =>
    if r.splice.state == .accelerating then
      examinePastePoint ev k (ev (modSplice k (fun p => { p with state := .matched, accelTimer := none }) s))
    else s

/-- The speed-matched bit falls (R122). -/
def speedMatchedFalls (ev : State → State) (k : Nat) (s : State) : State :=
  match standOf s k with
  | none => s
  | some r =>
    if r.splice.state == .matched then
      ev (modSplice k (fun p => { p with state := .accelerating, accelTimer := some r.accelTimeout }) s)
    else s

/-! ## Charges (R114, R117, R126) -/

/-- The account of one charge on a stand (R114). -/
def chargeRoll (travel : Nat) (r : Stand) : Stand :=
  match r.active with
  | none => r
  | some roll =>
    let paper := travel * r.takeup + r.carry
    { r with active := some { roll with remaining := roll.remaining - paper / 1000 }, carry := paper % 1000 }

/-- The active remaining is at or below the run-out threshold (R117, R126). -/
def rollLow (r : Stand) : Bool := (r.active.map fun x => decide (x.remaining ≤ r.runOut)).getD false

/-- The splice may be pulled by run-out (R126). -/
def mayPull (p : Splice) : Bool :=
  p.kind == some .planned && !p.pulled &&
    (p.state == .pending || p.state == .armed || p.state == .accelerating || p.state == .matched)

/-- The run-out trigger or pull of a charge (R117, R126). -/
def examineRunOut (ev : State → State) (k : Nat) (s : State) : State :=
  match standOf s k with
  | none => s
  | some r =>
    if rollLow r then
      if r.splice.state == .idle then
        makePending ev k
          (fun p => { p with kind := some .runOut, target := some .now, boundaryW := none, paper := none, width := none,
                             pulled := false }) s
      else if mayPull r.splice then
        let t : Target := if r.splice.state == .pending then .now else .at (boardAt s r.effOffset)
        modSplice k (fun p => { p with pulled := true, target := some t }) s
      else s
    else s

/-- WEB_OUT is tested after a charge (R115). -/
def examineWebOut (ev : State → State) (k : Nat) (s : State) : State :=
  match standOf s k with
  | none => s
  | some r => if ranOut r && r.splice.state != .pasting then webOut ev k s else s

/-- The conditions of R120, the arm point and the paste point are examined (R114, R115). -/
def examinePoints (ev : State → State) (k : Nat) (s : State) : State :=
  examinePastePoint ev k (examineArmPoint ev k (examinePending ev k s))

/-- One charge of a stand whose active arm is not EMPTY, and the examinations after it (R114). -/
def chargeStand (ev : State → State) (travel k : Nat) (s : State) : State :=
  examinePoints ev k (examineRunOut ev k (examineWebOut ev k (modStand k (chargeRoll travel) s)))

/-- The charge of every stand for an assumed travel at a gap (R11, R114), in stand number order (DESIGN CHOICE, log entry 64). -/
def chargeGap (ev : State → State) (travel : Nat) (s : State) : State :=
  ((List.range (standCount s)).map (· + 1)).foldl
    (fun s k => if ((standOf s k).bind (·.active)).isSome then chargeStand ev travel k s else s) s

/-- The Splice Controller takes the new count of a tally (R9, R114, R115): a stand whose active arm is EMPTY is not charged,
but examined. The stands are taken in stand number order (DESIGN CHOICE, log entry 64). -/
def splicesNewCount (ev : State → State) (travel : Nat) (s : State) : State :=
  ((List.range (standCount s)).map (· + 1)).foldl
    (fun s k => if ((standOf s k).bind (·.active)).isSome then chargeStand ev travel k s else examinePoints ev k s) s

/-! ## Requests (R112, R113, R131) and the cancellation (R132) -/

/-- SPLICE_ABORT (R131). -/
def ruleSpliceAbort (ev : State → State) (k : Nat) (s : State) : State × Reply :=
  match standOf s k with
  | none => (s, refusal .notFound)
  | some r =>
    match r.splice.state with
    | .idle => (s, refusal .notFound)
    | .pasting => (s, refusal .tooLate)
    | .fault => (ev (modSplice k (fun _ => idleSplice) s), taken)
    | _ =>
      let s := openMismatch ev k (removeSlow k (abortIfRunning k r s))
      (ev (spliceReport k r .aborted none none none (modSplice k (fun _ => idleSplice) s)), taken)

/-- The roll id is held by an arm other than the one being written (R112, case 3). -/
def rollIdHeld (s : State) (k : Nat) (arm : Coded Arm) (rollId : Nat) : Bool :=
  ((List.range (standCount s)).map (· + 1)).any fun j =>
    match standOf s j with
    | none => false
    | some r =>
      ((r.active.map (·.rollId)) == some rollId && !(j == k && arm == .named .active)) ||
      ((r.standby.roll.map (·.rollId)) == some rollId && !(j == k && arm == .named .standby))

/-- The roll record a ROLL_PREPARE gives, with remaining equal to its length (R112). -/
def preparedRoll (v : RollFields) : Roll := ⟨v.rollId, v.paper, v.width, v.length, v.length⟩

/-- The standby arm with a roll placed on it: READY if the stand's last status word shows standby-ready (R112, case 7; log
entry 29). -/
def placedArm (s : State) (k : Nat) (roll : Roll) : StandbyArm :=
  if (roleWord s (.stand k)).getLsbD 0 then .ready roll else .prepared roll

/-- ROLL_PREPARE (R112). -/
def ruleRollPrepare (ev : State → State) (k : Nat) (arm : Coded Arm) (v : RollFields) (s : State) : State × Reply :=
  match standOf s k with
  | none => (s, refusal .notFound)
  | some r =>
    match rollCheck arm v with
    | some d => (s, badParameter d)
    | none =>
      if rollIdHeld s k arm v.rollId then (s, refusal .duplicate)
      else
        match arm with
        | .named .active =>
          if s.me.running then (s, refusal .wrongState)
          else (modStand k (fun r => { r with active := some (preparedRoll v), carry := 0 }) s, taken)
        | .named .standby =>
          if r.standby.isEmpty then
            let s := ev (modStand k (fun r => { r with standby := placedArm s k (preparedRoll v) }) s)
            (if s.me.running then examinePending ev k s else s, taken)
          else (s, refusal .inUse)
        | .beyond _ => (s, outOfRange)

/-- ROLL_WITHDRAW (R113). -/
def ruleRollWithdraw (ev : State → State) (k : Nat) (s : State) : State × Reply :=
  match standOf s k with
  | none => (s, refusal .notFound)
  | some r =>
    if r.standby.isEmpty then (s, refusal .notFound)
    else if r.splice.swapOwed then (s, refusal .inUse)
    else
      match r.splice.state with
      | .armed => (s, refusal .inUse)
      | .accelerating => (s, refusal .inUse)
      | .matched => (s, refusal .inUse)
      | .pasting => (s, refusal .inUse)
      | _ => (ev (modStand k (fun r => { r with standby := .empty }) s), taken)

/-- A planned splice for this boundary is in progress (R132). -/
def plannedFor (r : Stand) (wb : WebPos) : Bool :=
  r.splice.kind == some .planned && r.splice.boundaryW == some wb && r.splice.state != .idle && r.splice.state != .fault

/-- The cancellation claim of a withdrawal at one stand (R132). A pulled splice goes on as RUN_OUT, in PASTING as well (DEDUCED,
log entry 40), and its pulled stays true, which R132 leaves open (DESIGN CHOICE, log entry 70). -/
def cancelPlanned (ev : State → State) (wb : WebPos) (k : Nat) (s : State) : State :=
  match standOf s k with
  | none => s
  | some r =>
    let s :=
      if plannedFor r wb then
        if r.splice.pulled then
          modSplice k (fun p => { p with kind := some .runOut, boundaryW := none, paper := none, width := none }) s
        else if r.splice.state == .pasting then s
        else
          ev (spliceReport k r .cancelled none none none
            (modSplice k (fun _ => idleSplice) (removeSlow k (abortIfRunning k r s))))
      else s
    if (r.mismatch.map (·.w)) == some wb then closeMismatch ev k wb s else s

/-! ## RESTART and START (R135) -/

/-- RESTART at one stand (R135). -/
def spliceRestart (k : Nat) (s : State) : State :=
  match standOf s k with
  | none => s
  | some r =>
    let s := abortIfRunning k r s
    let s := modStand k
      (fun r =>
        { r with jointRef := none, mismatch := none,
                 splice := if r.splice.state == .pasting then
                     { idleSplice with swapOwed := true, pasteTimer := r.splice.pasteTimer }
                   else { idleSplice with swapOwed := r.splice.swapOwed } }) s
    match r.splice.state with
    | .idle => s
    | .fault => s
    | .pasting => s
    | _ => spliceReport k r .abandoned none none none s

/-- RESTART at every stand (R135), in stand number order (DESIGN CHOICE, log entry 64). -/
def splicesRestart (s : State) : State :=
  ((List.range (standCount s)).map (· + 1)).foldl (fun s k => spliceRestart k s) s

/-- START copies the address of the station in role STANDk into each stand record (R110, R195). -/
def copyAddresses (s : State) : State :=
  ((List.range (standCount s)).map (· + 1)).foldl
    (fun s k => modStand k (fun r => { r with address := (stationIn s (.stand k)).map (·.address) }) s) s

end Sys2Proof.Machine
end

