-- ==== Sys2Proof/Machine/Flags.lean ====
section
/-! DEFINITION. The flag computations: the bits of a status word and their changes (R176, Table 9-4), the changed bits of a
CHANGE report (R177), and the rising and clearing conditions of the trip levels (R156, R157). -/

namespace Sys2Proof.Machine

/-! ## Status words -/

/-- The toggled bits: those that differ between the last status word and the frame's word (R176, step 1). -/
def toggledBits (old new : Word16) : Word16 := old ^^^ new

/-- The changed bits of a CHANGE report: the toggled bits under the watch mask (R177, R178). -/
def changedBits (old new watch : Word16) : Word16 := toggledBits old new &&& watch

/-- A bit rises between two words. -/
def bitRises (old new : Word16) (i : Nat) : Bool := !old.getLsbD i && new.getLsbD i

/-- A bit falls between two words. -/
def bitFalls (old new : Word16) (i : Nat) : Bool := old.getLsbD i && !new.getLsbD i

/-- The fault bit of a status word (Table 9-4). -/
def faultBit (w : Word16) : Bool := w.getLsbD 3

/-! ## Trip levels -/

/-- The value of one level. -/
def levelOf {α : Type} (p : PerLevel α) : Level → α
  | .low => p.low
  | .high => p.high
  | .cutout => p.cutout

/-- Change the value of one level. -/
def setLevel {α : Type} (l : Level) (x : α) (p : PerLevel α) : PerLevel α :=
  match l with
  | .low => { p with low := x }
  | .high => { p with high := x }
  | .cutout => { p with cutout := x }

/-- The action set of a level (Table 7-1). -/
def actionsOf (z : Zone) : Level → ActionSet
  | .low => z.lowActions
  | .high => z.highActions
  | .cutout => z.cutoutActions

/-- The value beyond which a reading raises a level; LOW and HIGH are relative to the current setpoint (Table 8-1). -/
def thresholdOf (z : Zone) : Level → Option Int
  | .low => z.current.map (· + z.bandLow)
  | .high => z.current.map (· + z.bandHigh)
  | .cutout => some z.cutout

/-- The rising condition of a level (Table 8-1). LOW and HIGH have none while the current setpoint is absent. -/
def risesAt (z : Zone) (v : Int) : Level → Bool
  | .low => (z.current.map fun c => decide (v < c + z.bandLow)).getD false
  | .high => (z.current.map fun c => decide (c + z.bandHigh < v)).getD false
  | .cutout => decide (z.cutout < v)

/-- The clearing condition of a level (Table 8-1). -/
def fallsAt (z : Zone) (v : Int) : Level → Bool
  | .low => (z.current.map fun c => decide (c + z.bandLow + z.hysteresis ≤ v)).getD false
  | .high => (z.current.map fun c => decide (v ≤ c + z.bandHigh - z.hysteresis)).getD false
  | .cutout => decide (v ≤ z.cutout - z.hysteresis)

/-- The reading part of CUTOUT after a reading (R157). -/
def readingPartAfter (z : Zone) (v : Int) (was : Bool) : Bool :=
  if risesAt z v .cutout then true else if fallsAt z v .cutout then false else was

/-- The live flags a reading leaves (R156, R157), for a zone whose bands are evaluated or not. -/
def liveAfter (z : Zone) (t : ZoneTrip) (v : Int) : PerLevel Bool :=
  let bands := !t.held
  let lowUp := bands && !t.live.low && risesAt z v .low
  let highUp := bands && !t.live.high && risesAt z v .high
  { low := lowUp || (t.live.low && !(bands && (fallsAt z v .low || highUp))),
    high := highUp || (t.live.high && !(bands && (fallsAt z v .high || lowUp))),
    cutout := readingPartAfter z v t.readingPart || t.stationFault }

end Sys2Proof.Machine
end

