-- ==== Sys2Proof/Machine/Trips.lean ====
section
/-! DEFINITION. The Trip and Standby unit: readings (R155 to R157), risings and fallings with their actions and windows (R158
to R160), standby (R162 to R164), reports (R165), START and RESTART (R167). The argument `ev` is the Order Sequencer's
evaluation. -/

namespace Sys2Proof.Machine

/-! ## Reports (R165) -/

/-- Place a TRIP report for a zone with its flags after the event (R165). -/
def tripReport (n : Nat) (e : TripEvent) (s : State) : State :=
  match zoneOf s n with
  | none => s
  | some z =>
    let t := tripOf s n
    report (.trip { zone := n, kind := z.kind, event := e, live := t.live, latched := t.latched,
                    stationFault := t.stationFault, lastReading := t.lastReading, current := z.current }) s

/-! ## Risings and fallings (R158 to R160) -/

/-- The cause of a zone's deviation windows (8.3). -/
def deviationCause : ZoneKind → WindowCause
  | .glue => .glueStarve
  | .plate => .heatDeviation
  | .preheat => .heatDeviation

/-- The deviation windows of a zone (Table 2-2, R34). -/
def zoneOwns (n : Nat) (c : WindowCause) (src : Source) : Bool :=
  (c == .glueStarve || c == .heatDeviation) && src == .zone n

/-- The stop holder cause of a level (R159, step 2). -/
def levelStop : Level → StopCause
  | .cutout => .tripCutout
  | _ => .tripBand

/-- Open a level's deviation window at a rising (R160). -/
def openDeviation (ev : State → State) (n : Nat) (z : Zone) (l : Level) (s : State) : State × WindowWord :=
  let c : Claim :=
    { kind := .window (deviationCause z.kind) (.zone n) .openEnded, w := boardAt s z.offset, uncertainty := .exact 0 }
  let x := insertMark ev c s
  match x.2 with
  | .admitted id => (modTrip n (fun t => { t with windows := setLevel l (some id) t.windows }) x.1, .mark id)
  | .merged id => (modTrip n (fun t => { t with windows := setLevel l (some id) t.windows }) x.1, .mark id)
  | .refused => (modTrip n (fun t => { t with windows := setLevel l none t.windows }) x.1, .refused)

/-- A live flag rises in RUNNING (R158, R159): the flags, then WINDOW, STOP, HOLD and REPORT as the action set names them. -/
def raiseLevel (ev : State → State) (n : Nat) (l : Level) (value threshold : Option Int) (s : State) : State :=
  match zoneOf s n with
  | none => s
  | some z =>
    let a := actionsOf z l
    let s := modTrip n (fun t => { t with live := setLevel l true t.live, latched := setLevel l true t.latched }) s
    let x := if a.window then openDeviation ev n z l s else (s, .none)
    let s := if a.stop then claimStop (levelStop l) x.1 else x.1
    let s := if a.hold then stopClaim .trip s else s
    if a.report then tripReport n (.rise l value threshold a x.2 a.stop a.hold) s else s

/-- A live flag falls (R159, R160): the window the level holds is closed at the window point. The answer is the id of the
window closed. -/
def lowerLevel (ev : State → State) (n : Nat) (l : Level) (s : State) : State × Option MarkId :=
  let ref := levelOf (tripOf s n).windows l
  let s := modTrip n (fun t => { t with live := setLevel l false t.live, windows := setLevel l none t.windows }) s
  match ref with
  | none => (s, none)
  | some id =>
    let c := closeWindow ev id (zoneOwns n) none s
    (c.1, c.2.map fun _ => id)

/-! ## Readings (R155 to R157) -/

/-- Take the change of one level's live flag that a reading gives: a falling, in the first pass. -/
def fallIf (ev : State → State) (n : Nat) (after : PerLevel Bool) (l : Level) (s : State) : State :=
  if levelOf (tripOf s n).live l && !levelOf after l then (lowerLevel ev n l s).1 else s

/-- Take the change of one level's live flag that a reading gives: a rising, in the second pass. -/
def riseIf (ev : State → State) (n : Nat) (z : Zone) (v : Int) (after : PerLevel Bool) (l : Level) (s : State) : State :=
  if !levelOf (tripOf s n).live l && levelOf after l then raiseLevel ev n l (some v) (thresholdOf z l) s else s

/-- A reading is evaluated against a zone's trip levels (R156): all fallings before any rising. -/
def evaluateReading (ev : State → State) (n : Nat) (v : Int) (s : State) : State :=
  match zoneOf s n with
  | none => s
  | some z =>
    let after := liveAfter z (tripOf s n) v
    let s := modTrip n (fun t => { t with readingPart := readingPartAfter z v t.readingPart }) s
    let s := fallIf ev n after .cutout (fallIf ev n after .high (fallIf ev n after .low s))
    riseIf ev n z v after .cutout (riseIf ev n z v after .high (riseIf ev n z v after .low s))

/-- The placed zone a reading belongs to: its station address is the origin and its channel the frame's (R155). -/
def readingZone (s : State) (origin channel : Nat) : Option Nat :=
  (placedZones s).find? fun n =>
    ((zoneOf s n).map fun z => z.station == some origin && z.channel == channel).getD false

/-- The Trip and Standby unit takes a READING frame (R155). -/
def takeReading (ev : State → State) (origin channel : Nat) (v : Int) (s : State) : State :=
  match readingZone s origin channel with
  | none => { s with ts := { s.ts with unmatched := bump s.ts.unmatched 1 } }
  | some n =>
    let s := modTrip n (fun t => { t with lastReading := some ⟨v, s.pt.lineCount⟩ }) s
    let s := { s with ts := { s.ts with readingsTaken := bump s.ts.readingsTaken 1 } }
    if s.me.running then evaluateReading ev n v s else s

/-! ## Station faults (R157) -/

/-- The placed zones at a station's address, in zone number order. -/
def zonesAt (s : State) (address : Nat) : List Nat :=
  (placedZones s).filter fun n => ((zoneOf s n).map fun z => z.station == some address).getD false

/-- A zone's station fault condition becomes true, and its live CUTOUT rises if it was clear (R157, R167). The report of such a
rising carries no threshold (DESIGN CHOICE, log entry 61). -/
def zoneFaultTrue (ev : State → State) (n : Nat) (s : State) : State :=
  let was := (tripOf s n).live.cutout
  let s := modTrip n (fun t => { t with stationFault := true }) s
  if was then s else raiseLevel ev n .cutout none none s

/-- A zone's station fault condition becomes false, and its live CUTOUT falls if its reading part is clear (R157). -/
def zoneFaultFalse (ev : State → State) (n : Nat) (s : State) : State :=
  let t := tripOf s n
  let s := modTrip n (fun t => { t with stationFault := false }) s
  if t.live.cutout && !t.readingPart then (lowerLevel ev n .cutout s).1 else s

/-- A ZONE station's fault bit rises (R157); in CONFIGURING it changes no flag. -/
def zoneStationRises (ev : State → State) (address : Nat) (s : State) : State :=
  if s.me.running then (zonesAt s address).foldl (fun s n => zoneFaultTrue ev n s) s else s

/-- A ZONE station's fault bit falls (R157), taken in zone number order (DESIGN CHOICE, log entry 64); in CONFIGURING it changes
no flag. -/
def zoneStationFalls (ev : State → State) (address : Nat) (s : State) : State :=
  if s.me.running then (zonesAt s address).foldl (fun s n => zoneFaultFalse ev n s) s else s

/-! ## Standby (R162 to R164) -/

/-- A line stopped event: the timer of every placed zone whose standby delay is not 0 starts (R162). -/
def lineStopped (s : State) : State :=
  (placedZones s).foldl
    (fun s n =>
      let delay := ((zoneOf s n).map (·.standbyDelay)).getD 0
      if delay == 0 then s else modTrip n (fun t => { t with timer := some (delay * 10) }) s) s

/-- The return of one zone with standby held set (R164). -/
def standbyReturn (n : Nat) (s : State) : State :=
  if (tripOf s n).held then
    let back := (zoneOf s n).bind fun z => if z.run == .standby then z.returnValue else none
    let s := modTrip n (fun t => { t with held := false }) (standbyExit n s)
    tripReport n (.standbyOut back) s
  else s

/-- A line started event: every running timer is stopped, and the returns of R164 are made (R162). -/
def lineStarted (s : State) : State :=
  let s := { s with ts := { s.ts with zones := s.ts.zones.map fun t => { t with timer := none } } }
  (List.range s.ts.zones.length).foldl (fun s n => standbyReturn n s) s

/-- A live band flag falls at a standby expiry (R163, step 2). -/
def bandFalls (ev : State → State) (n : Nat) (l : Level) (s : State) : State × List MarkId :=
  if levelOf (tripOf s n).live l then
    let x := lowerLevel ev n l s
    (x.1, x.2.toList)
  else (s, [])

/-- A zone's standby timer expires (R163). A stopped timer does not expire (log entry 23). LOW falls before HIGH (DESIGN CHOICE,
log entry 35). -/
def standbyExpiry (ev : State → State) (n : Nat) (s : State) : State :=
  if (tripOf s n).timer.isNone then s
  else
    let s := modTrip n (fun t => { t with timer := none }) s
    let a := bandFalls ev n .low s
    let b := bandFalls ev n .high a.1
    let s := modTrip n (fun t => { t with held := true }) (standbyEntry n b.1)
    tripReport n (.standbyIn (a.2 ++ b.2) (((zoneOf s n).map (·.standbySetpoint)).getD 0)
      ((zoneOf s n).bind (·.returnValue))) s

/-! ## START and RESTART (R167) -/

/-- The last status word of a placed zone's station (R167). -/
def zoneWord (s : State) (n : Nat) : Word16 :=
  (((zoneOf s n).bind (·.station)).bind fun a => (stationAt s a).map fun e => e.2.word).getD 0

/-- START examines each placed zone's station for fault, in zone number order (R167). -/
def tripsStart (ev : State → State) (s : State) : State :=
  (placedZones s).foldl (fun s n => if faultBit (zoneWord s n) then zoneFaultTrue ev n s else s) s

/-- RESTART at TS (R167): the latched flags, the last readings and the counters are kept. -/
def tripsRestart (s : State) : State :=
  { s with ts := { s.ts with
    zones := s.ts.zones.map fun t => { clearTrip with latched := t.latched, lastReading := t.lastReading } } }

end Sys2Proof.Machine
end

