-- ==== Sys2Proof/Machine/OrderRequests.lean ====
section
/-! DEFINITION. The Order Sequencer's requests: ORDER_APPEND (R46), withdrawals (R62), ORDER_AMEND (R63, R64), ORDER_CANCEL
(R65); its claims from the cutoff: counts (R48), closes and make-up orders (R67 to R69); and RESTART (R70). The argument `ev` is
the evaluation of R52. -/

namespace Sys2Proof.Machine

/-- The short policy a checked record names; a code outside the two does not pass check 1 of Table 3-2. -/
def policyOf : Coded ShortPolicy → ShortPolicy
  | .named p => p
  | .beyond _ => .accept

/-! ## ORDER_APPEND (R46) -/

/-- The record of an appended order (R46). -/
def appendedOrder (number : Nat) (v : OrderFields) : Order :=
  { id := ⟨number, 0⟩, parent := none, target := v.target, overrun := v.overrun, layout := v.layout,
    cutLength := v.cutLength, grade := v.grade, stackHeight := v.stackHeight, policy := policyOf v.policy,
    holdAfter := v.holdAfter, feed := .queued, cutState := .waiting, startW := none, planned := none, endW := none,
    committedBefore := false, cancelPending := false, released := 0, cuts := 0, good := 0, rejects := [] }

/-- ORDER_APPEND (R46). -/
def ruleOrderAppend (ev : State → State) (number : Nat) (v : OrderFields) (s : State) : State × Reply :=
  if Config.orderCapacity ≤ s.os.orders.length then (s, refusal .full)
  else if (orderOf s ⟨number, 0⟩).isSome then (s, refusal .duplicate)
  else
    match orderCheck s v with
    | some d => (s, badParameter d)
    | none =>
      (ev { s with os := { s.os with orders := s.os.orders ++ [appendedOrder number v] } },
       .accepted (.queueIndex s.os.orders.length))

/-! ## Withdrawal (R62) -/

/-- Hand the block that received a dispatch the withdrawal of it (R62, step 2). -/
def withdrawThreshold (id : MarkId) (t : Threshold) (s : State) : State :=
  match t with
  | .release => s
  | .zone n => withdrawZone (fun s => s) id n s
  | .knifeApproach k => withdrawKnife (fun s => s) id k s
  | .knifeArrival k => withdrawKnife (fun s => s) id k s
  | .cutoff => withdrawPlan id s

/-- The mark id of the boundary from one order to another at a web position. An older boundary of the same orders may still be
in the map, at another one (R19, R62). -/
def boundaryBetween (s : State) (c n : OrderId) (w : WebPos) : Option MarkId :=
  (s.sm.marks.find? fun m => match m.kind with
    | .boundary (some a) b _ => a == c && b == n && m.w == w
    | _ => false).map (·.id)

/-- Steps 1 and 2 of a withdrawal (R62): the removal of the boundary at the end w, and the notices of its dispatched
thresholds, handed in the order in which the thresholds were dispatched (DESIGN CHOICE, log entry 69). -/
def withdrawBoundary (c n : OrderId) (w : WebPos) (s : State) : State :=
  match boundaryBetween s c n w with
  | none => s
  | some id =>
    let x := removeBoundary (fun s => s) id s
    (x.2.getD []).foldl (fun s t => withdrawThreshold id t s) x.1

/-- A withdrawal of the commit of `c` with its NEXT order `n` (R62). Evaluations that other blocks' notices call for wait for
the one its caller makes at its end (log entry 6). The stands take the cancellation (R132) in stand number order (DESIGN CHOICE,
log entry 64). -/
def withdrawCommit (c n : Order) (s : State) : State :=
  let w := c.endW.getD 0
  let s := withdrawBoundary c.id n.id w s
  let s := ((List.range (standCount s)).map (· + 1)).foldl (fun s k => cancelPlanned (fun s => s) w k s) s
  let s := knifeRelease n.id s
  let s := modOrder c.id (fun o => { o with feed := .feeding, endW := none }) s
  clearHeld (modOrder n.id (fun o => { o with feed := .queued }) s)

/-- The withdrawal that a forced change of the NEXT order `n` makes (R62). -/
def withdrawNext (n : Order) (s : State) : State :=
  match currentOrder s with
  | some c => withdrawCommit c n s
  | none => s

/-! ## ORDER_AMEND (R63, R64) -/

/-- The groups of an order: COUNTS, LAYOUT, CUT, GRADE, STACK, POLICY (Table 3-1). -/
abbrev orderGroups : Nat := 6

/-- The refusal of the COUNTS group in a feed state, or none where it is taken (Table 3-6). -/
def countsRefusal (force : Bool) : FeedState → Option Reason
  | .queued => none
  | .next => none
  | .feeding => none
  | .committed => if force then none else some .inUse
  | .fed => if force then none else some .inUse

/-- The refusal of the LAYOUT, CUT or GRADE group in a feed state, or none where it is taken (Table 3-6). -/
def boardRefusal (force : Bool) : FeedState → Option Reason
  | .queued => none
  | .next => if force then none else some .inUse
  | .feeding => if force then some .tooLate else some .inUse
  | .committed => some .tooLate
  | .fed => some .tooLate

/-- The refusal of one group in a feed state, or none where it is taken (Table 3-6). Group 0 is COUNTS, groups 1 to 3 are
LAYOUT, CUT and GRADE; STACK and POLICY are always taken. -/
def groupRefusal (feed : FeedState) (force : Bool) (group : Nat) : Option Reason :=
  if group = 0 then countsRefusal force feed else if group ≤ 3 then boardRefusal force feed else none

/-- The first refusal among the masked groups, in their order (R63). -/
def amendRefusal (feed : FeedState) (force : Bool) (mask : Byte) : Option Reason :=
  (List.range orderGroups).findSome? fun g => if masked mask g then groupRefusal feed force g else none

/-- An order's fields with the masked groups written (R63). -/
def amendFields (mask : Byte) (v f : OrderFields) : OrderFields :=
  let f := if masked mask 0 then { f with target := v.target, overrun := v.overrun } else f
  let f := if masked mask 1 then { f with layout := v.layout } else f
  let f := if masked mask 2 then { f with cutLength := v.cutLength } else f
  let f := if masked mask 3 then { f with grade := v.grade } else f
  let f := if masked mask 4 then { f with stackHeight := v.stackHeight } else f
  if masked mask 5 then { f with policy := v.policy, holdAfter := v.holdAfter } else f

/-- An order with these fields. -/
def withFields (f : OrderFields) (o : Order) : Order :=
  { o with target := f.target, overrun := f.overrun, layout := f.layout, cutLength := f.cutLength, grade := f.grade,
           stackHeight := f.stackHeight, policy := policyOf f.policy, holdAfter := f.holdAfter }

/-- A forceful LAYOUT, CUT or GRADE amendment of the NEXT order makes a withdrawal (R64). -/
def amendWithdraws (o : Order) (mask : Byte) : Bool :=
  o.feed == .next && (masked mask 1 || masked mask 2 || masked mask 3)

/-- The detail code an amendment fails with, if any: the ranges of the fields written, then, for a QUEUED order or under a
withdrawal, the record in full (R63). A forced amendment of a NEXT order that masks only COUNTS, STACK or POLICY makes no
withdrawal and gets no full check, though R45 names every forced amendment of a NEXT order (DESIGN CHOICE, log entry 68). -/
def amendCheck (s : State) (o : Order) (mask : Byte) (v : OrderFields) : Option Detail :=
  match firstFailure (orderRanges (masked mask 0) (masked mask 1) (masked mask 2) (masked mask 3) (masked mask 4)
      (masked mask 5) v) with
  | some d => some d
  | none =>
    if o.feed == .queued || amendWithdraws o mask then orderCheck s (amendFields mask v o.fields) else none

/-- An amended record; a COUNTS amendment of a FEEDING order not committed before sets its planned length again (R63). -/
def amendedOrder (compensation : Nat) (mask : Byte) (v : OrderFields) (o : Order) : Order :=
  let a := withFields (amendFields mask v o.fields) o
  if masked mask 0 && o.feed == .feeding && !o.committedBefore then { a with planned := some (plannedLength a compensation) } else a

/-- ORDER_AMEND (R63, R64). -/
def ruleOrderAmend (ev : State → State) (force : Bool) (mask : Byte) (id : OrderId) (v : OrderFields) (s : State) :
    State × Reply :=
  match orderOf s id with
  | none => (s, refusal .notFound)
  | some o =>
    if mask == 0 then (s, taken)
    else if maskBeyond mask orderGroups then (s, outOfRange)
    else
      match amendRefusal o.feed force mask with
      | some r => (s, refusal r)
      | none =>
        match amendCheck s o mask v with
        | some d => (s, badParameter d)
        | none =>
          let s := if amendWithdraws o mask then withdrawNext o s else s
          (ev (modOrder id (amendedOrder s.os.compensation mask v) s), taken)

/-! ## ORDER_CANCEL (R65) and the orphaning of trigger entries (R200) -/

/-- Take an order out of the queue. -/
def removeOrder (id : OrderId) (s : State) : State :=
  { s with os := { s.os with orders := s.os.orders.filter fun o => o.id != id } }

/-- A trigger entry names this order's feed start or close (R200). -/
def namesOrder (id : OrderId) : Trigger → Bool
  | .feedStart o => o == id
  | .orderClosed o => o == id
  | _ => false

/-- The entries naming an order removed by ORDER_CANCEL are removed, each with its TRIGGER report ORPHANED (R200), in index order
(DESIGN CHOICE, log entry 63). -/
def orphanEntries (id : OrderId) (s : State) : State :=
  (List.range s.me.triggers.length).foldl
    (fun s i =>
      match triggerAt s i with
      | some e => if namesOrder id e.trigger then triggerReport i e .orphaned none (setTrigger i none s) else s
      | none => s) s

/-- Remove a QUEUED order by a cancel (R65): the ORDER report, the removal, the orphaned entries. The held reason stays as it is
until the next of R56's events (DESIGN CHOICE, log entry 47). -/
def cancelQueued (id : OrderId) (s : State) : State :=
  match orderOf s id with
  | none => s
  | some o => orphanEntries id (removeOrder id (report (.order o .cancelled) s))

/-- A FEEDING order cancelled by FORCE (R65). -/
def cancelledFeeding (compensation : Nat) (o : Order) : Order :=
  let x : Order := { o with cancelPending := true, target := o.good }
  if o.committedBefore then x else { x with planned := some (plannedLength x compensation) }

/-- ORDER_CANCEL (R65). -/
def ruleOrderCancel (ev : State → State) (force : Bool) (id : OrderId) (s : State) : State × Reply :=
  match orderOf s id with
  | none => (s, refusal .notFound)
  | some o =>
    match o.feed with
    | .queued => (ev (cancelQueued id s), taken)
    | .next => if force then (ev (cancelQueued id (withdrawNext o s)), taken) else (s, refusal .inUse)
    | .feeding =>
      if force then (ev (modOrder id (cancelledFeeding s.os.compensation) s), taken) else (s, refusal .inUse)
    | .committed => (s, refusal .tooLate)
    | .fed => (s, refusal .tooLate)

/-! ## Counts (R48), closes and make-up orders (R67 to R69) -/

/-- Add sheets under a reject cause. -/
def addRejects (c : RejectCause) (sheets : Nat) : List RejectCount → List RejectCount
  | [] => [⟨c, sheets⟩]
  | x :: t => if x.cause == c then ⟨c, x.sheets + sheets⟩ :: t else x :: addRejects c sheets t

/-- An order with one cut counted; no cause stands for GOOD (R48). -/
def countedOrder (c : Option RejectCause) (o : Order) : Order :=
  let x : Order := { o with cuts := o.cuts + 1, cutState := if o.cutState == .waiting then .cutting else o.cutState }
  match c with
  | none => { x with good := x.good + x.lanes }
  | some r => { x with rejects := addRejects r x.lanes x.rejects }

/-- The count claim of the Cut Classifier and Stack Counter (R48). -/
def countClaim (id : OrderId) (c : Option RejectCause) (s : State) : State := modOrder id (countedOrder c) s

/-- The make-up order of a closing order (R68). -/
def makeUpOf (o : Order) : Order :=
  { o with id := ⟨o.id.number, o.id.makeUp + 1⟩, parent := some o.id, target := o.target - o.good, holdAfter := false,
           feed := .queued, cutState := .waiting, startW := none, planned := none, endW := none, committedBefore := false,
           cancelPending := false, released := 0, cuts := 0, good := 0, rejects := [] }

/-- The queue has no room for a make-up order (Table 3-7). -/
def noRoomFor (s : State) (o : Order) : Bool :=
  decide (Config.orderCapacity ≤ s.os.orders.length) || o.id.makeUp == 15 ||
    (orderOf s ⟨o.id.number, o.id.makeUp + 1⟩).isSome

/-- The outcome of a closing order: the first row of Table 3-7 that applies (R67). -/
def outcomeOf (s : State) (o : Order) : OrderOutcome :=
  if o.cancelPending then .cancelled
  else if o.target ≤ o.good then .complete
  else if o.policy == .accept then .short
  else if noRoomFor s o then .shortNoRoom
  else .madeUp (o.id.makeUp + 1)

/-- Place an order at the queued head (R68). -/
def placeAtHead (o : Order) (orders : List Order) : List Order :=
  (orders.filter fun x => x.feed != .queued) ++ [o] ++ (orders.filter fun x => x.feed == .queued)

/-- The make-up order of an outcome enters the queue (R68). -/
def placeMakeUp (o : Order) (c : OrderOutcome) (s : State) : State :=
  match c with
  | .madeUp _ => { s with os := { s.os with orders := placeAtHead (makeUpOf o) s.os.orders } }
  | _ => s

/-- The close claim (R67): a FED order is reported, removed and its close handed to the trigger table; a make-up order is
followed by an evaluation. Any other order is answered absent. -/
def closeOrder (id : OrderId) (s : State) : State :=
  match orderOf s id with
  | none => s
  | some o =>
    if o.feed == .fed then
      let o : Order := { o with cutState := .closed }
      let c := outcomeOf s o
      let s := removeOrder id (report (.order o c) (placeMakeUp o c s))
      let s := handEvent (fun t => t == .orderClosed id) s
      match c with
      | .madeUp _ => evaluate s
      | _ => s
    else s

/-! ## RESTART (R70) -/

/-- RESTART abandons an order in this feed state (R70). -/
def isAbandoned (o : Order) : Bool := o.feed == .feeding || o.feed == .committed || o.feed == .fed

/-- A kept order after RESTART (R70). -/
def keptOrder (o : Order) : Order :=
  { o with feed := .queued, startW := none, planned := none, endW := none, released := 0, committedBefore := false,
           cancelPending := false }

/-- RESTART at OS (R70). -/
def ordersRestart (s : State) : State :=
  let s := (s.os.orders.filter isAbandoned).foldl (fun s o => report (.order o .abandoned) s) s
  { s with os :=
    { orders := (s.os.orders.filter fun o => !isAbandoned o).map keptOrder, mode := .hold, holdCause := .restart,
      heldReason := none, compensation := 0, credits := [] } }

end Sys2Proof.Machine
end

