-- ==== Sys2Proof/Machine/Cuts.lean ====
section
/-! DEFINITION. Cut intake (R88 to R91), attribution and closing (R92, R93), classification (R94, R95), the gate plan (R97) and
the taking of a sheet (R96). -/

namespace Sys2Proof.Machine

/-! ## Attribution and closing (R92, R93) -/

/-- The order's board holds the web position: start w at or below it, and end w absent or greater (R92). -/
def boardHolds (o : Order) (w : WebPos) : Bool :=
  (o.feed == .feeding || o.feed == .committed || o.feed == .fed) &&
    (o.startW.map fun a => decide (a ≤ w)).getD false && (o.endW.map fun e => decide (w < e)).getD true

/-- The order a sheet starting at `w` is attributed to (R92). -/
def sheetOrder (s : State) (w : WebPos) : Option Order := s.os.orders.find? fun o => boardHolds o w

/-- An order's end: the close claim, followed at once by the stack close (R93, R103). -/
def endOrder (id : OrderId) (s : State) : State := stackOrderEnd id (closeOrder id s)

/-- The successor-cut closes before a sheet starting at `w` (R93): FED orders ending at or below it, oldest first. -/
def closeEarlier (w : WebPos) (s : State) : State :=
  ((s.os.orders.filter fun o => o.feed == .fed && (o.endW.map fun e => decide (e ≤ w)).getD false).map (·.id)).foldl
    (fun s id => endOrder id s) s

/-- The end-cut close of a sheet ending at `e` (R93). -/
def closeAtEnd (id : OrderId) (e : WebPos) (s : State) : State :=
  if (((orderOf s id).bind (·.endW)).map fun x => decide (x ≤ e)).getD false then endOrder id s else s

/-! ## Classification (R94, R95) -/

/-- The reject cause a mark gives (Table 5-1). -/
def markCause (m : Mark) : RejectCause :=
  match m.kind with
  | .boundary _ _ _ => .boundary
  | .joint _ => .joint
  | .window .knifeFault _ _ => .knifeFault
  | .window .lateSet _ _ => .lateSet
  | .window .gradeMismatch _ _ => .gradeMismatch
  | .window .glueStarve _ _ => .glueStarve
  | .window .heatDeviation _ _ => .heatDeviation
  | .window .transition _ _ => .transition
  | .window .operator _ _ => .operator

/-- Causes 2 to 10 of Table 5-1, in precedence order. -/
def mapCauses : List RejectCause :=
  [.boundary, .joint, .knifeFault, .lateSet, .gradeMismatch, .glueStarve, .heatDeviation, .transition, .operator]

/-- The map cause of highest precedence among the marks of a map answer (R94). -/
def mapCause (answer : List Mark) : Option RejectCause :=
  mapCauses.find? fun c => answer.any fun m => markCause m == c

/-- A sheet of this length is SHORT (Table 5-1). -/
def isShort (s : State) (o : Order) (length : Nat) : Bool :=
  decide (length + s.pt.geometry.shortTolerance < o.cutLength)

/-- A further good sheet of the order would be SURPLUS (Table 5-1). Table 5-1 decides, with its overrun allowance, also where the
target is below the good sheets, of which R64 speaks without the allowance (DEDUCED, log entry 59). -/
def isSurplus (o : Order) : Bool := decide ((ceilDiv o.target o.lanes + o.overrun) * o.lanes ≤ o.good)

/-- Causes 2 to 12 for a sheet of an order (R94); none makes it a candidate. -/
def boardCause (s : State) (o : Order) (length : Nat) (answer : List Mark) : Option RejectCause :=
  match mapCause answer with
  | some c => some c
  | none => if isShort s o length then some .short else if isSurplus o then some .surplus else none

/-- The stacker or the gate is faulted (R95). -/
def stackerFaulted (s : State) : Bool :=
  s.cs.stacker.faulted || faultBit (roleWord s .stacker) || faultBit (roleWord s .gate)

/-- The deck stack is close-pending or holds another order (R95). -/
def deckClosed (s : State) (o : Order) : Bool :=
  (s.cs.stacker.deck.map fun d => d.closePending.isSome || d.order != o.id).getD false

/-- The cuts on the deck; 0 with no deck stack (R95). -/
def deckCuts (s : State) : Nat := (s.cs.stacker.deck.map (·.cuts)).getD 0

/-- A candidate is examined against the stacker causes (R95). A deck stack of another order is marked close-pending. -/
def examineStacker (o : Order) (s : State) : State × Option RejectCause :=
  if stackerFaulted s then (s, some .stackerFault)
  else if s.cs.stacker.transferring then
    if deckClosed s o then (markDeck .orderEnd s, some .stackerBusy)
    else if deckCuts s == s.pt.geometry.deckCapacity then (s, some .stackerFull)
    else (s, none)
  else (s, none)

/-- The classification of a sheet before the gate plan (R94, R95); none is a candidate that passed R95. -/
def classify (o : Option Order) (length : Nat) (qs qe : WebPos) (s : State) : State × Option RejectCause :=
  match o with
  | none => (s, some .noOrder)
  | some o =>
    match boardCause s o length (queryMap s qs qe) with
    | some c => (s, some c)
    | none => examineStacker o s

/-! ## The gate plan (R97) -/

/-- The gate has stood in reject for the dwell at a sheet's start (R97). -/
def dwellPassed (s : State) (start : WebPos) : Bool :=
  (s.cs.gate.lastChange.map fun w => decide (w + s.pt.geometry.gateDwell ≤ start)).getD true

/-- A sheet is applied to the gate plan (R97); none stands for a candidate, and in the answer for GOOD. -/
def applyGate (c : Option RejectCause) (start : WebPos) (s : State) : State × Option RejectCause :=
  match c with
  | some x => (if s.cs.gate.reject then s else gateAt true start s, some x)
  | none =>
    if !s.cs.gate.reject then (s, none)
    else if dwellPassed s start then (gateAt false start s, none)
    else (s, some .gateDwell)

/-! ## Taking a sheet (R96) -/

/-- Step 3 of R96: in BUILDING, a current stack of another order is closed. -/
def stackOrderChange (o : Option Order) (s : State) : State :=
  match o, s.cs.stacker.current with
  | some o, some k => if !s.cs.stacker.transferring && k.order != o.id then closeCurrent .orderEnd s else s
  | _, _ => s

/-- Steps 6 and 7 of R96 with the counters of the cut: the count claim, and the stack for a GOOD sheet. -/
def countSheetOf (o : Option Order) (c : Option RejectCause) (e : WebPos) (s : State) : State :=
  let s := modCounters
    (fun k => { k with taken := bump k.taken 1, noOrder := if o.isNone then bump k.noOrder 1 else k.noOrder,
                       dwellLosses := if c == some .gateDwell then bump k.dwellLosses 1 else k.dwellLosses }) s
  match o with
  | none => s
  | some o =>
    let s := countClaim o.id c s
    if c.isNone then countSheet o e s else s

/-- A cut, or one piece of a gap, is taken with its extent from `a` to `e`; the map is queried over `qs` to `qe` (R91,
R96). -/
def takeSheet (a e qs qe : WebPos) (trim : Bool) (s : State) : State :=
  let s := closeEarlier a s
  let o := sheetOrder s a
  let s := stackOrderChange o s
  let x := classify o (e - a).toNat qs qe s
  let g := applyGate x.2 a x.1
  let s := prunePlan e trim (countSheetOf o g.2 e g.1)
  match o with
  | some o => closeAtEnd o.id e s
  | none => s

/-! ## Cut intake (R88 to R91) -/

/-- Set the previous wc (R90, R91). -/
def setPrevWc (w : WebPos) (s : State) : State := { s with cs := { s.cs with prevWc := some w } }

/-- The cut web position (R90). -/
def cutPosition (s : State) (offset : Nat) : WebPos := webPos (lineCount s + offset - s.pt.geometry.cutoffOffset)

/-- An expected cut (R90). -/
def takeExpectedCut (offset : Nat) (trim : Bool) (s : State) : State :=
  let wc := cutPosition s offset
  match s.cs.prevWc with
  | none => prunePlan wc false (setPrevWc wc s)
  | some p =>
    if p < wc then setPrevWc wc (takeSheet p wc p wc trim s) else takeSheet p p p p trim s

/-- The pieces of a gap: `k` pieces of one length, and the last up to `e` (R91). -/
def gapPieces (k : Nat) (p e : WebPos) : List (WebPos × WebPos × Bool) :=
  let len := (e - p).toNat / (k + 1)
  ((List.range k).map fun i => (p + (i * len : Nat), p + ((i + 1) * len : Nat), false)) ++ [(p + (k * len : Nat), e, true)]

/-- A cut after a gap of `k` lost cuts (R91). -/
def takeGapCut (k offset : Nat) (trim : Bool) (s : State) : State :=
  let count := modCounters fun c => { c with lost := bump c.lost k }
  match s.cs.prevWc with
  | none => count (takeExpectedCut offset trim s)
  | some p =>
    let e := max (cutPosition s offset) p
    let s := (gapPieces k p e).foldl (fun s x => takeSheet x.1 x.2.1 p e (x.2.2 && trim) s) s
    count (setPrevWc e s)

/-- Set the last cut sequence (R88, R89). -/
def setCutSeq (seq : Byte) (s : State) : State := { s with cs := { s.cs with lastSeq := some seq } }

/-- The Cut Classifier takes a CUT frame (R88, R89). -/
def takeCut (seq : Byte) (offset : Nat) (trim : Bool) (s : State) : State :=
  if !s.me.running then setCutSeq seq s
  else
    match s.cs.lastSeq with
    | none => takeExpectedCut offset trim (setCutSeq seq s)
    | some last =>
      match (seq - last).toNat with
      | 0 => modCounters (fun c => { c with duplicate := bump c.duplicate 1 }) s
      | 1 => takeExpectedCut offset trim (setCutSeq seq s)
      | d + 2 => takeGapCut (d + 1) offset trim (setCutSeq seq s)

end Sys2Proof.Machine
end

