-- ==== Sys2Proof/Machine/Tally.lean ====
section
/-! DEFINITION. Tally intake (R7 to R13): the classification by sequence, the handling of a gap, the taking of a tally, and the
new count handed to the blocks. -/

namespace Sys2Proof.Machine

/-- Set the last sequence (R7, R9). -/
def setTallySeq (seq : Byte) (s : State) : State := { s with pt := { s.pt with lastSeq := some seq } }

/-- The handling of a gap of `k` lost tallies (R11): uncertainty, rolls, the lost-tally count and the tracking warning. The
charges are examined with the line count and speed of the moment (log entry 28). -/
def takeGap (k : Nat) (s : State) : State :=
  let travel := k * s.pt.geometry.maxDelta
  let s := chargeGap evaluate travel (raiseUncertainty travel s)
  let s := { s with pt := { s.pt with lostTallies := bump s.pt.lostTallies k } }
  examineTracking s

/-- The speed a tally gives: delta × 60 ÷ interval, rounded down (R9, step 2). -/
def tallySpeed (s : State) (delta : Nat) : Nat := delta * 60 / s.pt.geometry.tallyInterval

/-- The line stopped or line started event of a tally, if its STOPPED flag changes the stopped state (R10). -/
def stoppedChange (was now : Bool) (s : State) : State :=
  if was == now then s else if now then lineStopped s else lineStarted s

/-- The new count is handed to SM, ZR, SC, OS and ME, each acting in full before the next (R9, step 5). -/
def handNewCount (delta : Nat) (s : State) : State :=
  let s := zonesNewCount (mapNewCount takeRelease evaluate s)
  let s := evaluate (ordersNewCount (splicesNewCount evaluate delta s))
  handEvent
    (fun t => match t with
      | .lineAt c => decide (c ≤ s.pt.lineCount)
      | _ => false) s

/-- Steps 1 to 4 of the taking of a tally, with the report of an excessive delta (R9, R12; log entry 27). -/
def advance (seq : Byte) (delta : Nat) (stopped : Bool) (s : State) : State :=
  let was := s.pt.stopped
  let s := { s with pt := { s.pt with
    lineCount := satAdd lineCountMax s.pt.lineCount delta, speed := tallySpeed s delta, stopped := stopped } }
  let s := setTallySeq seq (stoppedChange was stopped s)
  if s.pt.geometry.maxDelta < delta then report (.tracking (.overDelta seq delta s.pt.lineCount)) s else s

/-- The taking of a tally (R9). -/
def takeExpectedTally (seq : Byte) (delta : Nat) (stopped : Bool) (s : State) : State :=
  handNewCount delta (advance seq delta stopped s)

/-- The Position Tracker receives a TALLY frame from the encoder (R7, R8). -/
def takeTally (seq : Byte) (delta : Nat) (stopped : Bool) (s : State) : State :=
  if !s.me.running then setTallySeq seq s
  else
    match s.pt.lastSeq with
    | none => takeExpectedTally seq delta stopped s
    | some last =>
      match (seq - last).toNat with
      | 0 => s
      | 1 => takeExpectedTally seq delta stopped s
      | d + 2 => takeExpectedTally seq delta stopped (takeGap (d + 1) s)

end Sys2Proof.Machine
end

