-- ==== Sys2Proof/Machine/StatusWords.lean ====
section
/-! DEFINITION. STATE frames: the comparison and dispatch of status words (R176), change reporting (R177) and the holding slots
(R178, R174). -/

namespace Sys2Proof.Machine

/-! ## Change reporting (R177, R178) -/

/-- The reports in the holding slots of an entry, first slot first (R178). -/
def slotsOf (s : State) (i : Nat) : List HeldReport := s.ri.held.filter fun h => h.entry == i

/-- Change the second report of an entry in the list of held reports; the first argument counts those already passed. -/
def modSecondSlot (i : Nat) (f : HeldReport → HeldReport) : Nat → List HeldReport → List HeldReport
  | _, [] => []
  | n, x :: t =>
    if x.entry == i then
      if n = 1 then f x :: t else x :: modSecondSlot i f (n + 1) t
    else x :: modSecondSlot i f n t

/-- A report merged into the report of the second slot (R178). -/
def mergeReport (watch : Word16) (r : ChangeReport) (h : HeldReport) : HeldReport :=
  { h with report := { h.report with
      newWord := r.newWord, lineCount := r.lineCount, changed := changedBits h.report.oldWord r.newWord watch,
      overwritten := true } }

/-- Change the list of held reports. -/
def setHeld (hs : List HeldReport) (s : State) : State := { s with ri := { s.ri with held := hs } }

/-- Place a CHANGE report (R177): in the report queue, in a free holding slot, or merged into the second slot. -/
def placeChange (i : Nat) (watch : Word16) (r : ChangeReport) (s : State) : State :=
  if (slotsOf s i).isEmpty && decide (s.ri.reports.length < Config.reportCapacity) then report (.change r) s
  else if (slotsOf s i).length < 2 then setHeld (s.ri.held ++ [⟨i, r⟩]) s
  else setHeld (modSecondSlot i (mergeReport watch r) 0 s.ri.held) s

/-- Change reporting at a STATE frame (R177). -/
def reportChange (i : Nat) (e : Station) (word : Word16) (s : State) : State :=
  let c := changedBits e.word word e.watch
  if c == 0 then s
  else
    placeChange i e.watch
      { address := e.address, role := e.role, oldWord := e.word, newWord := word, changed := c, overwritten := false,
        lineCount := s.pt.lineCount } s

/-- Move held reports into the report queue while it has free entries, the longest waiting first (R178). The header of a moved
report has the line count of the move, its body that of its frame (DESIGN CHOICE, log entry 57). The first argument bounds the
moves. -/
def moveHeld : Nat → State → State
  | 0, s => s
  | f + 1, s =>
    match s.ri.held with
    | [] => s
    | h :: t =>
      if s.ri.reports.length < Config.reportCapacity then moveHeld f (report (.change h.report) (setHeld t s)) else s

/-- The reports of an entry's holding slots are discarded, each taking the next report number and counted lost (R174). -/
def discardHeld (i : Nat) (s : State) : State :=
  let n := (slotsOf s i).length
  { s with ri := { s.ri with
    held := s.ri.held.filter fun h => h.entry != i, reportsLost := bump s.ri.reportsLost n,
    reportNumber := s.ri.reportNumber + BitVec.ofNat 16 n } }

/-! ## Dispatch (R176, step 4) -/

/-- Hand one bit's change: `up` at a rising, `down` at a falling. -/
def handBit (old new : Word16) (i : Nat) (up down : State → State) (s : State) : State :=
  if bitRises old new i then up s else if bitFalls old new i then down s else s

/-- The changes of a stand's bits, handed to SC in bit order (R176; log entry 36). -/
def dispatchStand (k : Nat) (old new : Word16) (offset : Nat) (s : State) : State :=
  let s := handBit old new 0 (standbyReadyRises evaluate k) (standbyReadyFalls evaluate k) s
  let s := handBit old new 1 (speedMatchedRises evaluate k) (speedMatchedFalls evaluate k) s
  let s := handBit old new 2 (pasteDoneRises evaluate k offset) (fun s => s) s
  handBit old new 3 (standFaultRises evaluate k) (standFaultFalls evaluate k) s

/-- The changes of a knife station's bits, handed to KC in bit order (R73, R176). -/
def dispatchKnife (k : KnifeId) (old new : Word16) (s : State) : State :=
  let s := handBit old new 0 (knifeReadyRises evaluate k) (knifeReadyFalls k) s
  let s := handBit old new 1 (knifeEngagedRises evaluate k) (fun s => s) s
  let s := handBit old new 2 (knifeLiftedRises evaluate k) (fun s => s) s
  handBit old new 3 (knifeFaultRises evaluate k) (knifeFaultFalls evaluate k) s

/-- The changes of the stacker's bits, handed to CS in bit order (R104, R106). -/
def dispatchStacker (old new : Word16) (s : State) : State :=
  let s := handBit old new 0 (transferDoneChange true) (transferDoneChange false) s
  handBit old new 3 stackerFaultChange stackerFaultChange s

/-- Hand the toggled bits that Table 9-4 names for a role to the owning block (R176, step 4). -/
def dispatchWord (role : Role) (address : Nat) (old new : Word16) (offset : Nat) (s : State) : State :=
  match role with
  | .stand k => dispatchStand k old new offset s
  | .knifeA => dispatchKnife .a old new s
  | .knifeB => dispatchKnife .b old new s
  | .cutoff => handBit old new 3 cutoffFaultRises (fun s => s) s
  | .stacker => dispatchStacker old new s
  | .zone => handBit old new 3 (zoneStationRises evaluate address) (zoneStationFalls evaluate address) s
  | .gate => s
  | .drive => s
  | .encoder => s
  | .supervisor => s
  | .panel => s

/-- Put an entry at an index of the station table. -/
def setStation (i : Nat) (e : Option Station) (s : State) : State :=
  { s with ri := { s.ri with stations := s.ri.stations.set i e } }

/-- A STATE frame is taken at the station's entry (R176): compare, replace, report, dispatch. -/
def takeState (i : Nat) (e : Station) (word offset : Word16) (s : State) : State :=
  let s := setStation i (some { e with word := word, lastOffset := offset }) s
  dispatchWord e.role e.address e.word word offset.toNat (reportChange i e word s)

end Sys2Proof.Machine
end

