-- ==== Sys2Proof/Machine/Reads.lean ====
section
/-! DEFINITION. READ (R190): each item of Table 10-4 as its owning rule lists it (R1, R4, R22, R40, R43, R84, R108, R110, R134,
R153, R166, R169, R184). -/

namespace Sys2Proof.Machine

/-- An answer with an item. -/
def itemReply (v : ItemValue) : Reply := .accepted (.item v)

/-- Draw the time left on a timer started with duration `d` (R108, R166): a free value from 0 to `d` (log entry 3). -/
def drawTimeLeft (d : Nat) (s : State) : State × Nat :=
  ({ s with freeIndex := s.freeIndex + 1 }, Config.timeLeft s.freeIndex % (d + 1))

/-- The time left on a timer: none where it is stopped. -/
def timeLeftOf (t : Option Nat) (s : State) : State × Option Nat :=
  match t with
  | none => (s, none)
  | some d =>
    let x := drawTimeLeft d s
    (x.1, some x.2)

/-- A slot holds an answer (R181). -/
def slotFull (s : State) (x : Slot) : Bool := s.ri.answers.any fun a => a.slot == x

/-- The trigger entries in use (R190). -/
def triggersInUse (s : State) : Nat := (s.me.triggers.filter (·.isSome)).length

/-- A grade record is in use (R136). -/
def gradeInUse (s : State) (g : Nat) : Bool :=
  s.zr.zones.any (fun z => z.grade == some g) || s.os.orders.any fun o => o.grade == g

/-- The number of marks that satisfy a test. -/
def countMarks (s : State) (p : Mark → Bool) : Nat := (s.sm.marks.filter p).length

/-- A mark is a joint. -/
def Mark.isJoint (m : Mark) : Bool :=
  match m.kind with
  | .joint _ => true
  | _ => false

/-- The map status item (R40). -/
def readMapStatus (s : State) : ItemValue :=
  .mapStatus s.sm.marks.length (countMarks s Mark.isBoundary) (countMarks s Mark.isJoint) (countMarks s Mark.isOpen)
    (countMarks s fun m => !m.isBoundary && !m.isJoint && !m.isOpen) s.sm.nextId (largestUncertainty s)

/-- The number of orders in a feed state (R43). -/
def countOrders (s : State) (f : FeedState) : Nat := (s.os.orders.filter fun o => o.feed == f).length

/-- The sequencer status item (R43). With no current order its lengths read 0 (DESIGN CHOICE, log entry 42). -/
def readSequencer (s : State) : ItemValue :=
  let c := currentOrder s
  .sequencerStatus (countOrders s .queued) (countOrders s .next) (countOrders s .feeding) (countOrders s .committed)
    (countOrders s .fed) s.os.mode s.os.holdCause s.os.heldReason (c.map (·.id)) ((c.map (·.released)).getD 0)
    ((c.bind (·.planned)).getD 0)

/-- The knife status item (R84). -/
def readKnife (s : State) (k : KnifeId) : ItemValue :=
  let w := roleWord s (knifeRole k)
  .knifeStatus (knifeOf s k) (w.getLsbD 0) (w.getLsbD 1) (w.getLsbD 2) (w.getLsbD 3)

/-- The stand item (R134). -/
def readStand (s : State) (k : Nat) (r : Stand) : ItemValue :=
  let w := roleWord s (.stand k)
  .stand r (w.getLsbD 0) (w.getLsbD 1) (w.getLsbD 2) (w.getLsbD 3)

/-- The zone item (R153). -/
def readZone (s : State) (z : Zone) : ItemValue :=
  .zone z (z.ramp.map (rampTravel s)) (z.ramp.map fun r => stageValue r r.stageIndex)

/-- The station item (R184). -/
def readStation (s : State) (i : Nat) : ItemValue :=
  match (s.ri.stations[i]?).join with
  | some e => .station e.address e.role e.watch e.word e.lastOffset ((slotsOf s i).map (·.report))
  | none => .stationEmpty

/-- The zones of the SETPOINT directives waiting (R184). -/
def waitingSetpoints (s : State) : List Nat :=
  s.ri.directives.filterMap fun d => match d.directive with
    | .setpoint z _ _ => some z
    | _ => none

/-- The LINE_REQUEST waiting, if any (R184). -/
def waitingRequest (s : State) : Option LineRequest :=
  s.ri.directives.findSome? fun d => match d.directive with
    | .lineRequest r => some r
    | _ => none

/-- The ring status item (R184). -/
def readRing (s : State) : ItemValue :=
  let r := s.ri
  .ringStatus r.ownAddress r.frameFaults r.returned r.stray r.malformed r.overruns r.discardedDirectives r.reportsLost
    r.directives.length (waitingSetpoints s) (waitingRequest s) (slotFull s .supervisor) (slotFull s .panel)
    (slotFull s .refusal) r.reports.length r.held.length r.reportNumber

/-- The fault item (R169): the record or the empty form, and the frame fault count. -/
def readFaultItem (s : State) : ItemValue :=
  match s.ri.faultRecord with
  | none => .fault none none none none 0 none none 0 s.ri.frameFaults
  | some f =>
    .fault (some f.check) f.origin f.kind f.length f.octets f.received (some f.formed) f.lineCount s.ri.frameFaults

/-- READ of the fault item: the record is returned and then emptied (R169). -/
def readFaultRecord (s : State) : State × Reply :=
  ({ s with ri := { s.ri with faultRecord := none } }, itemReply (readFaultItem s))

/-- READ of the stacker status item (R108). -/
def readStacker (s : State) : State × Reply :=
  let x := timeLeftOf s.cs.stacker.timer s
  (x.1, itemReply (.stackerStatus s.cs.stacker s.cs.stackCounter x.2))

/-- READ of the trip status item (R166). -/
def readTrip (n : Nat) (s : State) : State × Reply :=
  if Config.zoneCapacity ≤ n then (s, outOfRange)
  else if !((zoneOf s n).map (·.placed)).getD false then (s, refusal .notFound)
  else
    let x := timeLeftOf (tripOf s n).timer s
    (x.1, itemReply (.tripStatus (tripOf s n) x.2))

/-- An item whose record at the index may be absent. -/
def readOr (r : Reason) (v : Option ItemValue) (s : State) : State × Reply :=
  match v with
  | some x => (s, itemReply x)
  | none => (s, refusal r)

/-- READ of an item of Table 10-4 (R190). An item without an index ignores the one given (log entry 19). -/
def readItem (item : Item) (i : Nat) (s : State) : State × Reply :=
  match item with
  | .managementStatus =>
    (s, itemReply (.managementStatus s.me.running s.me.discards (triggersInUse s) (slotFull s .supervisor)
      (slotFull s .panel) (slotFull s .refusal)))
  | .trigger => if Config.triggerCapacity ≤ i then (s, outOfRange) else (s, itemReply (.trigger (triggerAt s i)))
  | .lineStatus =>
    (s, itemReply (.lineStatus s.pt.lineCount s.pt.speed s.pt.stopped s.pt.lostTallies s.pt.stop s.pt.slow))
  | .lineGeometry => (s, itemReply (.lineGeometry s.pt.geometry))
  | .mapStatus => (s, itemReply (readMapStatus s))
  | .mapEntry =>
    readOr .notFound ((s.sm.marks[i]?).map fun m => .mapEntry m (farEdge s m) (extentLow s m) (extentHigh s m)) s
  | .rejectSpan => if 9 ≤ i then (s, outOfRange) else (s, itemReply (.rejectSpan (spanAt s i)))
  | .order => readOr .notFound ((s.os.orders[i]?).map ItemValue.order) s
  | .sequencerStatus => (s, itemReply (readSequencer s))
  | .knifeStatus =>
    match i with
    | 0 => (s, itemReply (readKnife s .a))
    | 1 => (s, itemReply (readKnife s .b))
    | _ => (s, outOfRange)
  | .cutStatus => (s, itemReply (.cutStatus s.cs.lastSeq s.cs.prevWc s.cs.counters s.cs.plan s.cs.gate))
  | .stackerStatus => readStacker s
  | .standConfiguration => (s, itemReply (.standConfiguration (standCount s)))
  | .stand => readOr .notFound ((standOf s i).map (readStand s i)) s
  | .grade => if Config.gradeCapacity ≤ i then (s, refusal .notFound)
      else (s, itemReply (.grade (gradeOf s i) (gradeInUse s i)))
  | .zone => readOr .notFound ((zoneOf s i).map (readZone s)) s
  | .profile => readOr .notFound ((s.zr.profiles[i]?).map ItemValue.profile) s
  | .tripStatus => readTrip i s
  | .tripCounters => (s, itemReply (.tripCounters s.ts.readingsTaken s.ts.unmatched))
  | .station => if Config.stationCapacity ≤ i then (s, outOfRange) else (s, itemReply (readStation s i))
  | .ringStatus => (s, itemReply (readRing s))
  | .fault => readFaultRecord s

/-- READ (R190). -/
def ruleRead (item : Coded Item) (i : Nat) (s : State) : State × Reply :=
  match item with
  | .named x => readItem x i s
  | .beyond _ => (s, outOfRange)

end Sys2Proof.Machine
end

