-- ==== Sys2Proof/Machine/Tables.lean ====
section
/-! DEFINITION. WRITE and LOAD (R191, R192) of the line geometry (R4, R6, R102), the reject spans (R22), the stand configuration
and stands (R110), the grades (R137), the zones (R138), the profiles (R139) and the station table (R174). -/

namespace Sys2Proof.Machine

/-- A group mask on an item of `n` groups (R191, checks 2 and 3): a bit that names no group is refused, an empty mask is
accepted and changes nothing, and any other goes on to the owning rule. -/
def groupsThen (mask : Byte) (n : Nat) (rule : State → State × Reply) (s : State) : State × Reply :=
  if maskBeyond mask n then (s, outOfRange) else if mask == 0 then (s, taken) else rule s

/-- A refusal stands in the way, or the request is taken with this effect. -/
def refuseOr (r : Option Reply) (effect : State → State) (s : State) : State × Reply :=
  match r with
  | some x => (s, x)
  | none => (effect s, taken)

/-- The first failing requirement of a list gives its reply. -/
def firstReply : List (Bool × Reply) → Option Reply
  | [] => none
  | (ok, r) :: t => if ok then firstReply t else some r

/-- A LOAD's table, count and span (R192, check 1). -/
def loadSpanFits (first count size : Nat) : Bool := inRange 1 8 count && decide (first + count ≤ size)

/-- The entries of a LOAD with their indices. -/
def loadEntries {α : Type} (first : Nat) (vs : List α) : List (Nat × α) := vs.zipIdx.map fun x => (first + x.2, x.1)

/-- The first refusal among the entries of a LOAD, in index order (R192, check 3). -/
def firstRefused {α : Type} (check : Nat → α → Option Reply) (es : List (Nat × α)) : Option Reply :=
  es.findSome? fun e => check e.1 e.2

/-- A refusal with a detail code, if there is one. -/
def detailReply (d : Option Detail) : Option Reply := d.map badParameter

/-! ## Line geometry (R4, R6, R102) -/

/-- The checks of a WRITE of the line geometry: the ranges, the groups kept for CONFIGURING, the leads in RUNNING, and the deck
capacity against the deck stack (R4, R6, R102). -/
def geometryRefusal (s : State) (mask : Byte) (g : Geometry) : Option Reply :=
  let new := writeGeometry mask g s.pt.geometry
  firstReply
    [(geometryInRange mask g, outOfRange), (!(s.me.running && (masked mask 0 || masked mask 1)), refusal .wrongState),
     (!(s.me.running && masked mask 3) || geometryLeadsFit new, badParameter .leadLong),
     (!masked mask 3 || decide (deckCuts s ≤ g.deckCapacity), refusal .inUse)]

/-- The effect of a taken WRITE of the line geometry (R4, R6): the record, the tracking warning at a new warn limit (R13), the
evaluation at a DRY write (R52). -/
def applyGeometry (mask : Byte) (g : Geometry) (s : State) : State :=
  let s := { s with pt := { s.pt with geometry := writeGeometry mask g s.pt.geometry } }
  let s := if masked mask 2 then examineTracking s else s
  if masked mask 3 then evaluate s else s

/-- WRITE of the line geometry (R4). -/
def ruleWriteGeometry (mask : Byte) (g : Geometry) (s : State) : State × Reply :=
  groupsThen mask 4 (refuseOr (geometryRefusal s mask g) (applyGeometry mask g)) s

/-! ## Reject spans (R22) -/

/-- The check of one reject span entry (R22). -/
def spanRefusal (i : Nat) (v : Span) : Option Reply := if i < 9 && spanInRange v then none else some outOfRange

/-- Write one reject span entry (R22). -/
def setSpan (i : Nat) (v : Span) (s : State) : State := { s with sm := { s.sm with spans := s.sm.spans.set i v } }

/-- WRITE of a reject span entry (R22). -/
def ruleWriteSpan (i : Nat) (v : Span) (s : State) : State × Reply := refuseOr (spanRefusal i v) (setSpan i v) s

/-- LOAD of reject span entries (R22, R192). -/
def ruleLoadSpan (first : Nat) (vs : List Span) (s : State) : State × Reply :=
  let es := loadEntries first vs
  if !loadSpanFits first vs.length 9 then (s, outOfRange)
  else refuseOr (firstRefused spanRefusal es) (fun s => es.foldl (fun s e => setSpan e.1 e.2 s) s) s

/-! ## Stands (R110) -/

/-- The stand table with this count: records above it are discarded, new ones are created (R110). -/
def resizeStands (count : Nat) (stands : List Stand) : List Stand :=
  stands.take count ++ List.replicate (count - stands.length) newStand

/-- WRITE of the stand configuration (R110). -/
def ruleWriteStandConfiguration (count : Nat) (s : State) : State × Reply :=
  if count != 3 && count != 5 then (s, outOfRange)
  else if s.me.running then (s, refusal .wrongState)
  else ({ s with sc := { s.sc with stands := resizeStands count s.sc.stands } }, taken)

/-- The checks of a WRITE of a stand record (R110, R6). -/
def standRefusal (s : State) (mask : Byte) (k : Nat) (v : StandFields) : Option Reply :=
  match standOf s k with
  | none => some (refusal .notFound)
  | some r =>
    firstReply
      [(standInRange mask v, outOfRange), (!(s.me.running && masked mask 0), refusal .wrongState),
       (!(s.me.running && masked mask 1) || decide (v.spliceLead ≤ r.effOffset + s.pt.geometry.dPre),
        badParameter .leadLong)]

/-- WRITE of a stand record (R110). -/
def ruleWriteStand (mask : Byte) (k : Nat) (v : StandFields) (s : State) : State × Reply :=
  groupsThen mask 2 (refuseOr (standRefusal s mask k v) (modStand k (writeStandFields mask v))) s

/-! ## Grades (R137) -/

/-- The checks of one grade record of a WRITE or LOAD (R137). -/
def gradeRefusal (s : State) (force : Bool) (g : Nat) (v : Option Grade) : Option Reply :=
  firstReply
    [(decide (g < Config.gradeCapacity), outOfRange), (gradePapersInRange v, badParameter .paperRange),
     (!gradeInUse s g || (force && v.isSome), refusal .inUse)]

/-- Replace a grade record (R137). -/
def setGrade (g : Nat) (v : Option Grade) (s : State) : State :=
  { s with zr := { s.zr with grades := s.zr.grades.set g v } }

/-- A written grade record is applied to the zones it is in effect for, in RUNNING (R137, R147). -/
def gradeInForce (g : Nat) (s : State) : State := if s.me.running then applyGrade evaluate g s else s

/-- The effects of one taken grade record (R137, R192): its application, and the commit evaluation (R52). -/
def gradeEffects (g : Nat) (s : State) : State := evaluate (gradeInForce g s)

/-- WRITE of a grade record (R137). -/
def ruleWriteGrade (force : Bool) (g : Nat) (v : Option Grade) (s : State) : State × Reply :=
  refuseOr (gradeRefusal s force g v) (fun s => gradeEffects g (setGrade g v s)) s

/-- LOAD of grade records (R137, R192): every record is written, and then the effects of each follow, in index order. -/
def ruleLoadGrade (force : Bool) (first : Nat) (vs : List (Option Grade)) (s : State) : State × Reply :=
  let es := loadEntries first vs
  if !loadSpanFits first vs.length Config.gradeCapacity then (s, outOfRange)
  else
    refuseOr (firstRefused (gradeRefusal s force) es)
      (fun s =>
        let s := es.foldl (fun s e => setGrade e.1 e.2 s) s
        es.foldl (fun s e => gradeEffects e.1 s) s) s

/-! ## Zones (R138) -/

/-- The checks of one zone record apart from the duplicate reading source (R138, R6). -/
def zoneRefusal (s : State) (mask : Byte) (n : Nat) (v : ZoneFields) : Option Reply :=
  firstReply
    [(decide (n < Config.zoneCapacity) && zoneInRange mask v, outOfRange),
     (!(s.me.running && masked mask 0), refusal .wrongState),
     (!(s.me.running && masked mask 1) || decide (v.rampLead ≤ zoneOffset s n + s.pt.geometry.dPre),
      badParameter .leadLong)]

/-- Write the masked groups of a zone record; a standby delay of 0 stops the zone's timer (R138, R162). -/
def setZone (mask : Byte) (n : Nat) (v : ZoneFields) (s : State) : State :=
  let s := modZone n (writeZoneFields mask v) s
  if masked mask 2 && v.standbyDelay == 0 then modTrip n (fun t => { t with timer := none }) s else s

/-- The check for duplicate reading sources on the table as it would stand (R138). -/
def sourceRefusal (mask : Byte) (after : State) : Option Reply :=
  if masked mask 0 && !readingSourcesUnique after.zr.zones then some (refusal .duplicate) else none

/-- The checks on the zone records of a request, then those on the table as it would stand (R138, R192). -/
def zonesRefusal (s : State) (mask : Byte) (es : List (Nat × ZoneFields)) : Option Reply :=
  match firstRefused (zoneRefusal s mask) es with
  | some r => some r
  | none => sourceRefusal mask (es.foldl (fun s e => setZone mask e.1 e.2 s) s)

/-- WRITE of a zone record (R138). -/
def ruleWriteZone (mask : Byte) (n : Nat) (v : ZoneFields) (s : State) : State × Reply :=
  groupsThen mask 4 (refuseOr (zonesRefusal s mask [(n, v)]) (setZone mask n v)) s

/-- LOAD of zone records (R138, R192). -/
def ruleLoadZone (mask : Byte) (first : Nat) (vs : List ZoneFields) (s : State) : State × Reply :=
  let es := loadEntries first vs
  if !loadSpanFits first vs.length Config.zoneCapacity then (s, outOfRange)
  else
    groupsThen mask 4
      (refuseOr (zonesRefusal s mask es) (fun s => es.foldl (fun s e => setZone mask e.1 e.2 s) s)) s

/-! ## Profiles (R139) -/

/-- The checks of one profile record (R139). -/
def profileRefusal (i : Nat) (p : Profile) : Option Reply :=
  if Config.profileCapacity ≤ i then some outOfRange else detailReply (profileCheck p)

/-- Write one profile record (R139). -/
def setProfile (i : Nat) (p : Profile) (s : State) : State :=
  { s with zr := { s.zr with profiles := s.zr.profiles.set i p } }

/-- WRITE of a profile record (R139). -/
def ruleWriteProfile (i : Nat) (p : Profile) (s : State) : State × Reply :=
  refuseOr (profileRefusal i p) (setProfile i p) s

/-- LOAD of profile records (R139, R192). -/
def ruleLoadProfile (first : Nat) (vs : List Profile) (s : State) : State × Reply :=
  let es := loadEntries first vs
  if !loadSpanFits first vs.length Config.profileCapacity then (s, outOfRange)
  else refuseOr (firstRefused profileRefusal es) (fun s => es.foldl (fun s e => setProfile e.1 e.2 s) s) s

/-! ## The station table (R174) -/

/-- The role a checked entry names; a code outside Table 9-1 does not pass check 1 of R174. -/
def roleNamed : Coded Role → Role
  | .named r => r
  | .beyond _ => .panel

/-- The entry a request leaves at an index (R174). A write of WATCH alone keeps the last status word. An entry made by a write of
IDENTITY alone where none was starts with the watch mask 0 (DESIGN CHOICE, log entry 62). -/
def stationAfter (mask : Byte) (v : StationForm) (old : Option Station) : Option Station :=
  match v with
  | .empty => none
  | .fields a r w =>
    if masked mask 0 then
      some { address := a, role := roleNamed r, watch := if masked mask 1 then w else (old.map (·.watch)).getD 0,
             word := 0, lastOffset := 0 }
    else old.map fun e => { e with watch := w }

/-- The request writes the IDENTITY group of an entry, or empties it (R174). -/
def writesIdentity (mask : Byte) : StationForm → Bool
  | .empty => true
  | .fields _ _ _ => masked mask 0

/-- The entry's address is the own address (R174, check 3). -/
def isOwnAddress (s : State) (mask : Byte) : StationForm → Bool
  | .empty => false
  | .fields a _ _ => masked mask 0 && a == s.ri.ownAddress.toNat

/-- A WATCH write alone names an entry that is empty (log entry 12). -/
def watchesNothing (s : State) (mask : Byte) (i : Nat) (v : StationForm) : Bool :=
  !writesIdentity mask v && ((s.ri.stations[i]?).join).isNone

/-- The checks of one station table entry apart from those between entries (R174, checks 1 to 3). -/
def stationRefusal (s : State) (mask : Byte) (i : Nat) (v : StationForm) : Option Reply :=
  firstReply
    [(decide (i < Config.stationCapacity) && stationInRange mask v, outOfRange),
     (!(s.me.running && writesIdentity mask v), refusal .wrongState),
     (!watchesNothing s mask i v, refusal .notFound), (!isOwnAddress s mask v, refusal .duplicate)]

/-- A list of names holds none twice. -/
def noneTwice {α : Type} [BEq α] (l : List α) : Bool := l.length == l.eraseDups.length

/-- No address and no single role is held by two entries (R174, checks 4 and 5). -/
def stationsUnique (es : List (Option Station)) : Bool :=
  let xs := es.filterMap id
  noneTwice (xs.map (·.address)) && noneTwice ((xs.map (·.role)).filter (· != .zone))

/-- Write one entry of the station table (R174); a write of IDENTITY and an emptying discard the entry's held reports. The status
word that these set to 0 hands no bit to a block, so a READY standby arm stays READY (DESIGN CHOICE, log entry 65). -/
def writeStation (mask : Byte) (i : Nat) (v : StationForm) (s : State) : State :=
  let s := setStation i (stationAfter mask v ((s.ri.stations[i]?).join)) s
  if writesIdentity mask v then discardHeld i s else s

/-- The checks on the entries of a request, then those on the table as it would stand (R174, R192). -/
def stationsRefusal (s : State) (mask : Byte) (es : List (Nat × StationForm)) : Option Reply :=
  match firstRefused (stationRefusal s mask) es with
  | some r => some r
  | none =>
    if stationsUnique (es.foldl (fun s e => writeStation mask e.1 e.2 s) s).ri.stations then none
    else some (refusal .duplicate)

/-- WRITE of a station table entry (R174). -/
def ruleWriteStation (mask : Byte) (i : Nat) (v : StationForm) (s : State) : State × Reply :=
  groupsThen mask 2 (refuseOr (stationsRefusal s mask [(i, v)]) (writeStation mask i v)) s

/-- LOAD of station table entries (R174, R192). -/
def ruleLoadStation (mask : Byte) (first : Nat) (vs : List StationForm) (s : State) : State × Reply :=
  let es := loadEntries first vs
  if !loadSpanFits first vs.length Config.stationCapacity then (s, outOfRange)
  else
    groupsThen mask 2
      (refuseOr (stationsRefusal s mask es) (fun s => es.foldl (fun s e => writeStation mask e.1 e.2 s) s)) s

/-! ## WRITE and LOAD without fields (R191, R192; log entry 30) -/

/-- The number of WRITE groups of an item (Table 10-4). -/
def writeGroups : Item → Nat
  | .lineGeometry => 4
  | .rejectSpan => 1
  | .standConfiguration => 1
  | .stand => 2
  | .grade => 1
  | .zone => 4
  | .profile => 1
  | .station => 2
  | _ => 0

/-- The number of entries of a loadable table (R192). -/
def loadSize : Item → Option Nat
  | .rejectSpan => some 9
  | .grade => some Config.gradeCapacity
  | .zone => some Config.zoneCapacity
  | .profile => some Config.profileCapacity
  | .station => some Config.stationCapacity
  | _ => none

/-- The mask names none of an item's `n` groups, so that no fields belong to it (R188, check 4). -/
def namesNoGroup (mask : Byte) (n : Nat) : Bool := decide (1 < n) && mask.toNat % 2 ^ n == 0

/-- WRITE of an item with no fields in its body (R191). -/
def ruleWritePlain (mask : Byte) (item : Coded Item) (s : State) : State × Reply :=
  match item with
  | .beyond _ => (s, outOfRange)
  | .named x =>
    if writeGroups x = 0 then (s, outOfRange)
    else if namesNoGroup mask (writeGroups x) then groupsThen mask (writeGroups x) (fun s => (s, taken)) s
    else (s, refusal .size)

/-- LOAD of a table with no fields in its body (R192). -/
def ruleLoadPlain (mask : Byte) (table : Coded Item) (first count : Nat) (s : State) : State × Reply :=
  match table with
  | .beyond _ => (s, outOfRange)
  | .named x =>
    match loadSize x with
    | none => (s, outOfRange)
    | some n =>
      if count = 0 then (s, outOfRange)
      else if namesNoGroup mask (writeGroups x) then
        if loadSpanFits first count n then groupsThen mask (writeGroups x) (fun s => (s, taken)) s else (s, outOfRange)
      else (s, refusal .size)

end Sys2Proof.Machine
end

