-- ==== Sys2Proof/Machine/Lifecycle.lean ====
section
/-! DEFINITION. START with its checks (R194, R195, R5, R135, R152, R175), RESTART (R196) and the reset input. -/

namespace Sys2Proof.Machine

/-! ## The checks of START (R194) -/

/-- A refusal with PARAMETER, a detail code and a subject. -/
def badSubject (d : Detail) (x : Subject) : Reply := .refused .parameter d x

/-- The numbers of the configured stands. -/
def standNumbers (s : State) : List Nat := (List.range (standCount s)).map (· + 1)

/-- Check 2: no stand has swap owed true (R135). The lowest such stand is named (DESIGN CHOICE, log entry 66). -/
def swapOwedStand (s : State) : Option Nat :=
  (standNumbers s).find? fun k => ((standOf s k).map (·.splice.swapOwed)).getD false

/-- The roles START requires (R175). -/
def requiredRoles (s : State) : List Role :=
  [.encoder, .drive, .supervisor, .cutoff, .gate, .stacker, .knifeA, .knifeB] ++ (standNumbers s).map Role.stand

/-- Check 3: the first required role that no entry holds (R175). -/
def missingRole (s : State) : Option Role := (requiredRoles s).find? fun r => (stationIn s r).isNone

/-- Check 4: the stand without an active roll, or 0 for no stands (R135). The lowest is named (DESIGN CHOICE, log entry 66). -/
def rolllessStand (s : State) : Option Nat :=
  if standCount s == 0 then some 0
  else (standNumbers s).find? fun k => ((standOf s k).bind (·.active)).isNone

/-- The placed zone that fails a test; of several, the lowest is named (DESIGN CHOICE, log entry 66). -/
def failingZone (s : State) (ok : Zone → Bool) : Option Nat :=
  (placedZones s).find? fun n => !((zoneOf s n).map ok).getD true

/-- The stand that fails a test; of several, the lowest is named (DESIGN CHOICE, log entry 66). -/
def failingStand (s : State) (ok : Stand → Bool) : Option Nat :=
  (standNumbers s).find? fun k => !((standOf s k).map ok).getD true

/-- The geometry checks of Table 1-2, in their order (R5). -/
def geometryFault (s : State) : Option Reply :=
  let g := s.pt.geometry
  let offset := fun (f : Nat) => decide (0 < f) && decide (f < g.knifeAOffset)
  [ (failingZone s fun z => offset z.offset).map fun n => badSubject .offsetOrder (.zone n),
    if g.knifeAOffset < g.knifeBOffset ∧ g.knifeBOffset < g.cutoffOffset ∧ g.cutoffOffset < g.gateOffset then none
      else some (badParameter .offsetOrder),
    (failingStand s fun r => offset r.effOffset).map fun k => badSubject .offsetOrder (.stand k),
    if g.gateOffset ≤ g.cutoffOffset + 12000 then none else some (badParameter .gateFar),
    if g.knifeLead ≤ g.knifeAOffset + g.dPre then none else some (badParameter .leadLong),
    if g.cutoffLead ≤ g.cutoffOffset + g.dPre then none else some (badParameter .leadLong),
    (failingZone s fun z => decide (z.rampLead ≤ z.offset + g.dPre)).map fun n => badSubject .leadLong (.zone n),
    (failingStand s fun r => decide (r.spliceLead ≤ r.effOffset + g.dPre)).map fun k =>
      badSubject .leadLong (.stand k) ].findSome? fun x => x

/-- Check 6: a placed zone whose station is not in role ZONE (R152, check 1). -/
def stationlessZone (s : State) : Option Nat :=
  failingZone s fun z =>
    ((z.station.bind fun a => stationAt s a).map fun e => e.2.role == .zone).getD false

/-- Check 7: the grade of an order that names no loaded record (R152, check 2); of several, that of the first in queue order
(DESIGN CHOICE, log entry 66). -/
def emptyGrade (s : State) : Option Nat :=
  (s.os.orders.find? fun o => (gradeOf s o.grade).isNone).map (·.grade)

/-- The checks of START, in their order (R194). -/
def startRefusal (s : State) : Option Reply :=
  [ if s.me.running then some (refusal .wrongState) else none,
    (swapOwedStand s).map fun k => .refused .wrongState .none (.stand k),
    (missingRole s).map fun r => badSubject .roleMissing (.role r),
    (rolllessStand s).map fun k => badSubject .noActiveRoll (.stand k),
    geometryFault s,
    (stationlessZone s).map fun n => badSubject .roleMissing (.zone n),
    (emptyGrade s).map fun g => badSubject .gradeEmpty (.grade g) ].findSome? fun x => x

/-! ## START (R195) and RESTART (R196) -/

/-- Step 1 of START: the line count becomes 0 and the part state RUNNING (R195). -/
def enterRunning (s : State) : State :=
  { s with pt := { s.pt with lineCount := 0 }, me := { s.me with running := true } }

/-- The effects of a START that passes its checks (R195). -/
def startEffects (s : State) : State :=
  let s := copyAddresses (enterRunning s)
  let s := direct .drive (.lineRequest (startRequest s)) s
  let s := cutsStart (knifeStart .b (knifeStart .a s))
  evaluate (tripsStart evaluate s)

/-- START (R194, R195). -/
def ruleStart (s : State) : State × Reply := refuseOr (startRefusal s) startEffects s

/-- Steps 1 to 4 of RESTART: the directive queue, the part state, PT (R17) and the map (R42). -/
def leaveRunning (s : State) : State :=
  { s with
    ri := { s.ri with directives := [] },
    me := { s.me with running := false },
    pt := { s.pt with lastSeq := none, speed := 0, stopped := true, lostTallies := 0, trackingWarned := false, slow := [] },
    sm := { s.sm with marks := [], insertion := [] } }

/-- A zone after RESTART (R154). -/
def restartedZone (z : Zone) : Zone :=
  { z with run := .idle, grade := none, current := none, ramp := none, returnValue := none, lastApproach := none,
           priorGrade := none, priorTarget := none }

/-- RESTART at ZR (R154). -/
def zonesRestart (s : State) : State := { s with zr := { s.zr with zones := s.zr.zones.map restartedZone } }

/-- RESTART at ME: the trigger table is emptied (R203). -/
def triggersRestart (s : State) : State :=
  { s with me := { s.me with triggers := List.replicate Config.triggerCapacity none, feedStarts := [] } }

/-- The effects of a RESTART (R196). Knife station A is taken before B (DESIGN CHOICE, log entry 64). -/
def restartEffects (s : State) : State :=
  let s := ordersRestart (leaveRunning s)
  let s := cutsRestart (knifeRestart .b (knifeRestart .a s))
  triggersRestart (tripsRestart (zonesRestart (splicesRestart s)))

/-- RESTART (R196). -/
def ruleRestart (s : State) : State × Reply :=
  if s.me.running then (restartEffects s, taken) else (s, refusal .wrongState)

/-- The reset input (10.3): every block takes its power-on values, and the straps are read (R173). The waiting commands and the
counter of free values are the model's own and are kept. -/
def resetPart (straps : BitVec 6) (s : State) : State := { resetWith straps s.pending with freeIndex := s.freeIndex }

end Sys2Proof.Machine
end

