-- ==== Sys2Proof/Machine/Requests.lean ====
section
/-! DEFINITION. The Management Engine's intake (R186 to R189), IDENTIFY (R197), CLEAR_STOP (R15), TRIGGER_SET (R199),
TRIGGER_CLEAR (R200), and the rule of every request of Table 10-1. -/

namespace Sys2Proof.Machine

/-! ## Rules of no other block -/

/-- IDENTIFY (R197). -/
def ruleIdentify (s : State) : State × Reply :=
  (s, .accepted (.identity "Adjora" 4120 1 Config.mapCapacity Config.orderCapacity Config.gradeCapacity Config.zoneCapacity
    Config.profileCapacity Config.stationCapacity Config.standCapacity Config.triggerCapacity s.ri.ownAddress
    s.me.running))

/-- CLEAR_STOP (R15). -/
def ruleClearStop (c : Coded StopCause) (s : State) : State × Reply :=
  match c with
  | .beyond _ => (s, outOfRange)
  | .named x =>
    if !s.pt.stop.contains x then (s, refusal .notFound)
    else if x == .tripCutout && s.ts.zones.any (fun t => t.latched.cutout) then (s, refusal .stillActive)
    else (removeStop x s, taken)

/-- The trigger a form names, within its ranges (R199, check 2). -/
def namedTrigger : TriggerForm → Option Trigger
  | .lineAt c => some (.lineAt c)
  | .feedStart o => some (.feedStart o)
  | .orderClosed o => some (.orderClosed o)
  | .spliceDone k => if inRange 1 5 k then some (.spliceDone k) else none
  | .beyond _ => none

/-- The range checks a held request's own rule makes before it looks at any state, and its code (R199, checks 3 and 4). -/
def heldRefusal : HeldBody → Option Reply
  | .mode (.beyond _) => some outOfRange
  | .mode (.named _) => none
  | .spliceNow _ => none
  | .mark _ l => if windowLengthMax < l then some outOfRange else none
  | .orderFront _ => none
  | .latchClear n ls => if Config.zoneCapacity ≤ n || ls.foreign then some outOfRange else none
  | .other _ => some (badParameter .notTriggerable)

/-- The refusal an event gives as a trigger (R199, checks 6 and 7). -/
def eventRefusal (s : State) : Trigger → Option Reply
  | .lineAt c => if c ≤ s.pt.lineCount then some (badParameter .linePassed) else none
  | .feedStart o =>
    match orderOf s o with
    | none => some (refusal .notFound)
    | some x => if x.feed == .queued || x.feed == .next then none else some (refusal .tooLate)
  | .orderClosed o => if (orderOf s o).isSome then none else some (refusal .notFound)
  | .spliceDone k => if k ≤ standCount s then none else some (refusal .notFound)

/-- The lowest free index of the trigger table (R199). -/
def freeTrigger (s : State) : Option Nat := (List.range s.me.triggers.length).find? fun i => (triggerAt s i).isNone

/-- An entry with an equal trigger and an equal held request is registered (R199, check 8). -/
def equalEntry (s : State) (t : Trigger) (b : HeldBody) : Bool :=
  s.me.triggers.any fun x => (x.map fun e => e.trigger == t && e.held == b).getD false

/-- TRIGGER_SET (R199). -/
def ruleTriggerSet (src : MgmtSource) (form : TriggerForm) (tag : Nat) (heldTag : Byte) (held : HeldBody) (s : State) :
    State × Reply :=
  if !s.me.running then (s, refusal .wrongState)
  else
    match namedTrigger form with
    | none => (s, outOfRange)
    | some t =>
      if 7 < tag then (s, outOfRange)
      else
        match heldRefusal held with
        | some r => (s, r)
        | none =>
          if src == .panel && panelForbidsHeld held then (s, refusal .notPermitted)
          else
            match eventRefusal s t with
            | some r => (s, r)
            | none =>
              if equalEntry s t held then (s, refusal .duplicate)
              else
                match freeTrigger s with
                | none => (s, refusal .full)
                | some i =>
                  (setTrigger i (some { trigger := t, heldTag := heldTag, held := held, source := src, tag := tag }) s,
                   .accepted (.entryIndex i))

/-- TRIGGER_CLEAR (R200). An index outside 0–7 and a tag outside 1–7 are FIELD_RANGE (log entry 39). -/
def ruleTriggerClear (src : MgmtSource) (name : ClearName) (s : State) : State × Reply :=
  match name with
  | .index i =>
    if Config.triggerCapacity ≤ i then (s, outOfRange)
    else
      match triggerAt s i with
      | none => (s, refusal .notFound)
      | some e =>
        if e.source != src then (s, refusal .notPermitted)
        else (setTrigger i none s, .accepted (.indices [i]))
  | .tag t =>
    if !inRange 1 7 t then (s, outOfRange)
    else
      let is := ((groupEntries s t).filter fun g => g.2.source == src).map (·.1)
      if is.isEmpty then (s, refusal .notFound) else (removeTriggers is s, .accepted (.indices is))

/-! ## The request's own rule (R188, check 5) -/

/-- A request is taken under the rule that Table 10-1 names for it. -/
def applyBody (h : ReqHeader) (src : MgmtSource) (b : Body) (s : State) : State × Reply :=
  match b with
  | .identify => ruleIdentify s
  | .read item i => ruleRead item i s
  | .writePlain item _ => ruleWritePlain h.mask item s
  | .writeLineGeometry g => ruleWriteGeometry h.mask g s
  | .writeRejectSpan i v => ruleWriteSpan i v s
  | .writeStandConfiguration n => ruleWriteStandConfiguration n s
  | .writeStand k v => ruleWriteStand h.mask k v s
  | .writeGrade g v => ruleWriteGrade h.force g v s
  | .writeZone n v => ruleWriteZone h.mask n v s
  | .writeProfile i v => ruleWriteProfile i v s
  | .writeStation i v => ruleWriteStation h.mask i v s
  | .loadPlain t f n => ruleLoadPlain h.mask t f n s
  | .loadRejectSpan f vs => ruleLoadSpan f vs s
  | .loadGrade f vs => ruleLoadGrade h.force f vs s
  | .loadZone f vs => ruleLoadZone h.mask f vs s
  | .loadProfile f vs => ruleLoadProfile f vs s
  | .loadStation f vs => ruleLoadStation h.mask f vs s
  | .start => ruleStart s
  | .restart => ruleRestart s
  | .mode m => ruleMode evaluate m s
  | .orderAppend n v => ruleOrderAppend evaluate n v s
  | .orderAmend o v => ruleOrderAmend evaluate h.force h.mask o v s
  | .orderCancel o => ruleOrderCancel evaluate h.force o s
  | .orderFront o => ruleOrderFront evaluate o s
  | .rollPrepare k a r => ruleRollPrepare evaluate k a r s
  | .rollWithdraw k => ruleRollWithdraw evaluate k s
  | .spliceNow k => ruleSpliceNow evaluate k s
  | .spliceAbort k => ruleSpliceAbort evaluate k s
  | .latchClear n ls => ruleLatchClear n ls s
  | .clearStop c => ruleClearStop c s
  | .mark w l => ruleMark evaluate w l s
  | .triggerSet t tag ht b => ruleTriggerSet src t tag ht b s
  | .triggerClear n => ruleTriggerClear src n s

/-! ## Intake (R186 to R189) -/

/-- The address of the station in a role is this origin. -/
def isStationOf (s : State) (r : Role) (origin : Byte) : Bool :=
  ((stationIn s r).map fun e => e.address == origin.toNat).getD false

/-- The source of a request (R186). While the station table holds no SUPERVISOR entry, any origin is the supervisor source (log
entry 38). -/
def requestSource (s : State) (origin : Byte) : Option MgmtSource :=
  if (stationIn s .supervisor).isNone then some .supervisor
  else if isStationOf s .supervisor origin then some .supervisor
  else if isStationOf s .panel origin then some .panel
  else none

/-- The answer slot of a source; no source has the refusal slot (R181). -/
def slotOf : Option MgmtSource → Slot
  | some .supervisor => .supervisor
  | some .panel => .panel
  | none => .refusal

/-- Place an answer in its slot (R181, R189). -/
def placeAnswer (a : Answer) (s : State) : State := { s with ri := { s.ri with answers := s.ri.answers ++ [a] } }

/-- A request is discarded and counted (R187). -/
def discardRequest (s : State) : State := { s with me := { s.me with discards := bump s.me.discards 1 } }

/-- The requests that the panel source may not make (R188, check 3). -/
def panelForbids : Body → Bool
  | .start => true
  | .restart => true
  | .mode (.named .single) => true
  | .mode (.named .auto) => true
  | .orderAppend _ _ => true
  | .orderAmend _ _ => true
  | .orderCancel _ => true
  | .orderFront _ => true
  | .triggerSet _ _ _ h => panelForbidsHeld h
  | _ => false

/-- The request codes the panel source may not use, whatever the body (R188, check 3). -/
def panelForbidsCode (code : Nat) : Bool := [5, 6, 8, 9, 10, 11].contains code

/-- A request behind a complete header is checked and taken, for its source (R188, checks 2 to 5). The panel's MODE and
TRIGGER_SET are judged by their body only where its length is right: with a wrong one they are SIZE (DESIGN CHOICE, log
entry 58). -/
def takeForm (h : ReqHeader) (f : RequestForm) (src : MgmtSource) (s : State) : State × Reply :=
  match f with
  | .body b =>
    if src == .panel && panelForbids b then (s, refusal .notPermitted) else applyBody h src b s
  | .wrongSize code =>
    if !inRange 1 20 code then (s, refusal .unknownRequest)
    else if src == .panel && panelForbidsCode code then (s, refusal .notPermitted)
    else (s, refusal .size)

/-- A request from this origin is taken into the Management Engine (R186, R187): discarded where its slot is full, refused where
its origin is no source, and otherwise answered as `act` decides. -/
def intake (origin code tag : Byte) (act : MgmtSource → State → State × Reply) (s : State) : State :=
  let src := requestSource s origin
  if slotFull s (slotOf src) then discardRequest s
  else
    match src with
    | none => placeAnswer ⟨.refusal, origin, code, tag, refusal .notPermitted⟩ s
    | some x =>
      let r := act x s
      placeAnswer ⟨slotOf src, origin, code, tag, r.2⟩ r.1

/-- The request code of a form (Table 9-5). -/
def formCode : RequestForm → Nat
  | .body b => b.code
  | .wrongSize c => c

/-- A consumed REQUEST frame given by its fields is handed to the Management Engine (R170). -/
def takeRequest (h : ReqHeader) (f : RequestForm) (s : State) : State :=
  intake h.origin (BitVec.ofNat 8 (formCode f)) h.tag (takeForm h f) s

end Sys2Proof.Machine
end

