-- ==== Sys2Proof/Machine/Ring.lean ====
section
/-! DEFINITION. Frames at the receive port (R168 to R173), observation (R171), forwarding (R172), PASSIVE (R173), and the transmit
pin (R180 to R183). -/

namespace Sys2Proof.Machine

/-! ## The check (R168) -/

/-- The sum of the octets, modulo 65,536 (R168). -/
def octetSum (os : List Byte) : Word16 := os.foldl (fun n o => n + o.setWidth 16) 0

/-- The check formed over header and payload, high octet first (R168). -/
def checkOf (os : List Byte) : Byte × Byte :=
  let c := ~~~(octetSum os)
  (c.extractLsb' 8 8, c.extractLsb' 0 8)

/-- A frame of these header fields and this payload, with its check (Table 9-2, R168). -/
def frameOctets (target origin kind sequence : Byte) (payload : List Byte) : List Byte :=
  let body := [target, origin, kind, sequence, BitVec.ofNat 8 payload.length] ++ payload
  body ++ [(checkOf body).1, (checkOf body).2]

/-- The payload length octet of a frame, 0 where it is missing. -/
def lengthOctet (os : List Byte) : Nat := ((os[4]?).map (·.toNat)).getD 0

/-- The octet count and the payload length of a frame are right (R168). -/
def lengthRight (os : List Byte) : Bool := os.length == 5 + lengthOctet os + 2 && decide (lengthOctet os ≤ 240)

/-- The octets received as header and payload: all but the two check octets, or all where the frame is too short to hold them
(R169; log entry 10). -/
def checkedOctets (os : List Byte) : List Byte := if os.length < 7 then os else os.take (os.length - 2)

/-- The two check octets as received, if the frame holds them (R169; log entry 10). -/
def checkReceived (os : List Byte) : Option (Byte × Byte) :=
  if os.length < 7 then none
  else some (os.getD (os.length - 2) 0, os.getD (os.length - 1) 0)

/-- A received frame passes its check (R168). -/
def passesCheck (os : List Byte) : Bool := lengthRight os && checkReceived os == some (checkOf (checkedOctets os))

/-- A faulted frame is counted, and recorded where the record is empty (R169). The origin, kind and length of a frame too short
to hold their octets are recorded absent (DESIGN CHOICE, log entry 10). -/
def faultFrame (os : List Byte) (s : State) : State :=
  let r : FaultRecord :=
    { check := lengthRight os, origin := os[1]?, kind := os[2]?, length := os[4]?, octets := os.length,
      received := checkReceived os, formed := checkOf (checkedOctets os), lineCount := s.pt.lineCount }
  { s with ri := { s.ri with
    frameFaults := bump s.ri.frameFaults 1, faultRecord := some (s.ri.faultRecord.getD r) } }

/-! ## What a frame carries (R170, R171) -/

/-- The content of a frame as the part looks at it: an observed payload of the right length, one of a kind that is observed but
of another length, a REQUEST payload, another of the eight kinds, or a kind code outside the eight. -/
inductive Content where
  | tally (seq : Byte) (delta : Word16) (flags : Byte)
  | reading (channel : Byte) (value : Word16)
  | state (word offset : Word16)
  | cut (seq : Byte) (offset : Word16) (flags : Byte)
  | wrongLength (kind : Nat)
  | request (payload : List Byte)
  | other
  | foreign
deriving DecidableEq, Repr

/-- Two octets as one field, high octet first (9.7). -/
def word (hi lo : Byte) : Word16 := hi ++ lo

/-- The content of a frame of this kind, sequence and payload (Tables 9-2 and 9-3). -/
def contentOf (kind seq : Byte) (payload : List Byte) : Content :=
  match kind.toNat, payload with
  | 1, [a, b, f] => .tally seq (word a b) f
  | 2, [c, a, b] => .reading c (word a b)
  | 3, [a, b, c, d] => .state (word a b) (word c d)
  | 4, [a, b, f] => .cut seq (word a b) f
  | 1, _ => .wrongLength 1
  | 2, _ => .wrongLength 2
  | 3, _ => .wrongLength 3
  | 4, _ => .wrongLength 4
  | 6, p => .request p
  | k, _ => if 1 ≤ k ∧ k ≤ 8 then .other else .foreign

/-- The own address as an octet. -/
def ownOctet (s : State) : Byte := s.ri.ownAddress.setWidth 8

/-- A role sends the kind with this code among those observed (R171). -/
def roleSends (r : Role) (kind : Nat) : Bool :=
  (kind == 1 && r == .encoder) || (kind == 2 && r == .zone) || (kind == 4 && r == .cutoff) ||
    (kind == 3 && r != .supervisor && r != .panel)

/-- The malformed frames count increases by 1 (R171). -/
def countMalformed (s : State) : State := { s with ri := { s.ri with malformed := bump s.ri.malformed 1 } }

/-- Observe a forwarded frame whose origin is the station entry `e` at index `i` (R171). -/
def observeFrom (i : Nat) (e : Station) (c : Content) (s : State) : State :=
  match c with
  | .tally seq delta flags => if e.role == .encoder then takeTally seq delta.toNat (flags.getLsbD 0) s else s
  | .reading channel value =>
    if e.role == .zone then takeReading evaluate e.address channel.toNat value.toInt s else s
  | .state w o => if roleSends e.role 3 then takeState i e w o s else s
  | .cut seq offset flags => if e.role == .cutoff then takeCut seq offset.toNat (flags.getLsbD 0) s else s
  | .wrongLength kind => if roleSends e.role kind then countMalformed s else s
  | .request _ => s
  | .other => s
  | .foreign => s

/-- Observe a forwarded frame by its origin (R171). -/
def observe (origin : Byte) (c : Content) (s : State) : State :=
  match stationAt s origin.toNat with
  | some (i, e) => observeFrom i e c s
  | none => s

/-! ## What happens to a frame that passes (R170, R172) -/

/-- Place a frame in the forwarding buffer, or discard and count it where the buffer is full (R172). -/
def forward (f : RingFrame) (s : State) : State :=
  if s.ri.forwarding.length < Config.forwardingCapacity then
    { s with ri := { s.ri with forwarding := s.ri.forwarding ++ [f] } }
  else { s with ri := { s.ri with overruns := bump s.ri.overruns 1 } }

/-- The returned frames count increases by 1 (R170). -/
def countReturned (s : State) : State := { s with ri := { s.ri with returned := bump s.ri.returned 1 } }

/-- The stray frames count increases by 1 (R170). -/
def countStray (s : State) : State := { s with ri := { s.ri with stray := bump s.ri.stray 1 } }

/-- The request that has no body, if the code is one's (Table 10-1). -/
def bodyless : Nat → Option Body
  | 1 => some .identify
  | 5 => some .start
  | 6 => some .restart
  | _ => none

/-- The request that body octets behind a header spell. IDENTIFY, START and RESTART take no octet (R188, check 4), and every other
body has fields and so at least one (DEDUCED, log entry 5); the rest is read by the free parse (DESIGN CHOICE, log entry 5). -/
def readBody (code mask : Byte) (octets : List Byte) : RequestForm :=
  match bodyless code.toNat, octets with
  | some b, [] => .body b
  | some _, _ :: _ => .wrongSize code.toNat
  | none, [] => .wrongSize code.toNat
  | none, _ :: _ =>
    match Config.requestBody code mask octets with
    | some b => if b.code = code.toNat then .body b else .wrongSize code.toNat
    | none => .wrongSize code.toNat

/-- A REQUEST payload in octets is handed to the Management Engine (R170, R188): a short header is SIZE, a code outside Table 10-1
UNKNOWN_REQUEST, and the body octets are read by `readBody`. -/
def takePayload (target origin seq : Byte) (p : List Byte) (s : State) : State :=
  let code := p.getD 0 0
  let tag := p.getD 1 0
  let h : ReqHeader :=
    { target := target, origin := origin, sequence := seq, tag := tag, flags := p.getD 2 0, mask := p.getD 3 0 }
  if p.length < 4 then intake origin code tag (fun _ s => (s, refusal .size)) s
  else
    intake origin code tag (takeForm h (readBody code (p.getD 3 0) (p.drop 4))) s

/-- A frame that passes its check is taken by the first row of R170 that applies. One with a kind code outside the eight is not
consumed but forwarded (R168); with the own address as origin it has gone round the ring and is removed (DEDUCED, log entry
53). -/
def takeFrame (f : RingFrame) (target origin seq : Byte) (c : Content) (s : State) : State :=
  if origin == ownOctet s then countReturned s
  else if target == ownOctet s then
    match c with
    | .request p => takePayload target origin seq p s
    | .foreign => forward f s
    | _ => countStray s
  else observe origin c (forward f s)

/-- In PASSIVE every frame received is transmitted, unchanged (R173; log entry 9). -/
def repeatFrame (f : RingFrame) (s : State) : State := { s with ri := { s.ri with txPin := some f } }

/-- A frame given by its octets arrives at the receive port (R168 to R173). -/
def receiveOctets (os : List Byte) (s : State) : State :=
  if s.passive then repeatFrame (.octets os) s
  else if passesCheck os then
    let payload := (os.drop 5).take (lengthOctet os)
    let seq := os.getD 3 0
    takeFrame (.octets os) (os.getD 0 0) (os.getD 1 0) seq (contentOf (os.getD 2 0) seq payload) s
  else faultFrame os s

/-- A REQUEST frame that passes its check, given by its fields, arrives at the receive port (R170, R173). -/
def receiveRequest (h : ReqHeader) (f : RequestForm) (s : State) : State :=
  if s.passive then repeatFrame (.request h f) s
  else if h.origin == ownOctet s then countReturned s
  else if h.target == ownOctet s then takeRequest h f s
  else forward (.request h f) s

/-- A frame of an observed kind, given by its header and payload octets and its content, arrives at the receive port with its
check right (R170 to R173). -/
def receiveObserved (h : FrameHeader) (kind : Byte) (payload : List Byte) (c : Content) (s : State) : State :=
  let f : RingFrame := .octets (frameOctets h.target h.origin kind h.sequence payload)
  if s.passive then repeatFrame f s else takeFrame f h.target h.origin h.sequence c s

/-- The two octets of a field, high octet first (9.7). -/
def octetsOf (w : Word16) : List Byte := [w.extractLsb' 8 8, w.extractLsb' 0 8]

/-! ## The transmit pin (R180 to R183) -/

/-- Begin a frame the part originates: it takes the next originated-frame sequence (R180). -/
def originate (f : RingFrame) (s : State) : State :=
  { s with ri := { s.ri with txPin := some f, originSeq := s.ri.originSeq + 1 } }

/-- The address reports go to: the SUPERVISOR entry's, else the broadcast address (R182). -/
def reportTarget (s : State) : Nat := ((stationIn s .supervisor).map (·.address)).getD 63

/-- Transmit the oldest report; the freed entry is filled from the holding slots (R178, R182). -/
def transmitReport (r : Report) (t : List Report) (s : State) : State :=
  let s := originate (.report (reportTarget s) s.ri.ownAddress s.ri.originSeq r) s
  moveHeld s.ri.held.length { s with ri := { s.ri with reports := t } }

/-- The transmit pin is free: the next frame is begun, forwarded frames first, then directives, answers and reports (R183). -/
def transmitNext (s : State) : State :=
  match s.ri.forwarding, s.ri.directives, s.ri.answers, s.ri.reports with
  | f :: t, _, _, _ => { s with ri := { s.ri with forwarding := t, txPin := some f } }
  | [], d :: t, _, _ =>
    let s := originate (.directive d.target s.ri.ownAddress s.ri.originSeq d.directive) s
    { s with ri := { s.ri with directives := t } }
  | [], [], a :: t, _ =>
    let s := originate (.answer a.target s.ri.ownAddress s.ri.originSeq a) s
    { s with ri := { s.ri with answers := t } }
  | [], [], [], r :: t => transmitReport r t s
  | [], [], [], [] => s

end Sys2Proof.Machine
end

