-- ==== Sys2Proof/Machine/Wire.lean ====
section
/-! DEFINITION. The octets of the frames at the transmit pin: the codes of Tables 9-8, 9-9, 10-2 and 10-3, the headers of
Tables 9-2 and 9-5 to 9-7, and the check of R168. The manual gives the fields behind a directive's code and behind the headers
of answers and reports by their names, and no octet layout for them: those octets are free values (DESIGN CHOICE, log
entry 24). Where the manual gives no field there is no octet: behind ABORT's code, behind the header of an answer with neither
body nor subject, and behind the header of a request without a body. -/

namespace Sys2Proof.Config

/-- FREE VALUE (DESIGN CHOICE, log entry 24): the octets of a directive's fields behind its code (Table 9-9). -/
opaque directiveFields : Machine.Directive → List Byte

/-- FREE VALUE (DESIGN CHOICE, log entry 24): the octets of an answer's body behind its header (Table 9-6, R189). -/
opaque answerFields : Machine.Reply → List Byte

/-- FREE VALUE (DESIGN CHOICE, log entry 24): the octets of a report's body behind its header (Table 9-7). -/
opaque reportFields : Machine.ReportBody → List Byte

/-- FREE VALUE (DESIGN CHOICE, log entry 24): the octets of a request's body behind its header (Table 9-5), of a REQUEST frame of
another node that came by its fields. -/
opaque requestFields : RequestForm → List Byte

end Sys2Proof.Config

namespace Sys2Proof.Machine

/-! ## Codes -/

/-- The code of a refusal reason (Table 10-2). -/
def Reason.code : Reason → Nat
  | .unknownRequest => 1
  | .size => 2
  | .parameter => 3
  | .wrongState => 4
  | .inUse => 5
  | .tooLate => 6
  | .full => 7
  | .duplicate => 8
  | .notFound => 9
  | .notPermitted => 10
  | .stillActive => 11

/-- The detail code of a refusal (Table 10-3); 0 where the reason has none. -/
def Detail.code : Detail → Nat
  | .none => 0
  | .fieldRange => 1
  | .widthRange => 2
  | .cutRange => 3
  | .targetRange => 4
  | .stackRange => 5
  | .laneSum => 6
  | .laneNarrow => 7
  | .trimNarrow => 8
  | .scoreOrder => 9
  | .scoreEdge => 10
  | .gradeMissing => 11
  | .paperRange => 12
  | .stageCount => 13
  | .stageShort => 14
  | .shareSum => 15
  | .profileLong => 16
  | .shareZero => 17
  | .offsetOrder => 18
  | .leadLong => 19
  | .gateFar => 20
  | .roleMissing => 21
  | .noActiveRoll => 22
  | .gradeEmpty => 23
  | .notTriggerable => 24
  | .linePassed => 25

/-- The code a directive's payload begins with (Table 9-9, R180). -/
def Directive.code : Directive → Nat
  | .setLayout _ _ => 1
  | .engage _ => 2
  | .lift _ => 3
  | .cutPlan _ => 4
  | .gate _ _ => 5
  | .stackTransfer _ _ => 6
  | .arm _ => 7
  | .paste _ => 8
  | .abort => 9
  | .setpoint _ _ _ => 10
  | .lineRequest _ => 11

/-- The code of a report's kind (Table 9-8). -/
def ReportBody.code : ReportBody → Nat
  | .change _ => 1
  | .splice _ => 2
  | .order _ _ => 3
  | .stack _ => 4
  | .trip _ => 5
  | .knife _ => 6
  | .commitHeld _ => 7
  | .map _ => 8
  | .tracking _ => 9
  | .trigger _ => 10
  | .line _ _ _ _ => 11

/-! ## Payloads -/

/-- The low octet of a code. -/
def octet (n : Nat) : Byte := BitVec.ofNat 8 n

/-- A header followed by free octets, within the 240 octets of a payload (Table 9-2). -/
def payloadOf (header fields : List Byte) : List Byte := header ++ fields.take (240 - header.length)

/-- The octets behind a directive's code; ABORT has none (Table 9-9). -/
def directiveOctets : Directive → List Byte
  | .abort => []
  | d => Config.directiveFields d

/-- The octets behind an answer's header; an acceptance without a body and a refusal without a subject have none (R189). -/
def answerOctets : Reply → List Byte
  | .accepted .none => []
  | .refused _ _ .none => []
  | r => Config.answerFields r

/-- The octets behind a request's header; IDENTIFY, START and RESTART have none (Table 10-1). -/
def requestOctets : RequestForm → List Byte
  | .body .identify => []
  | .body .start => []
  | .body .restart => []
  | f => Config.requestFields f

/-- A number as `n` octets, high octet first (9.7). -/
def numberOctets : Nat → Nat → List Byte
  | 0, _ => []
  | n + 1, x => octet (x / 256 ^ n) :: numberOctets n x

/-- The payload of a DIRECTIVE frame: the directive's code and its fields (R180, Table 9-9). -/
def directivePayload (d : Directive) : List Byte := payloadOf [octet d.code] (directiveOctets d)

/-- The result, reason and detail octets of an answer (Table 9-6). -/
def resultOctets : Reply → List Byte
  | .accepted _ => [0, 0, 0, 0]
  | .refused r d _ => [1, octet r.code] ++ numberOctets 2 d.code

/-- The payload of an ANSWER frame: code and tag as in the request, the result, and the body (R189, Table 9-6). -/
def answerPayload (a : Answer) : List Byte :=
  payloadOf ([a.code, a.tag] ++ resultOctets a.reply) (answerOctets a.reply)

/-- The payload of a REPORT frame: kind, report number, line count, and the body (Table 9-7). -/
def reportPayload (r : Report) : List Byte :=
  payloadOf ([octet r.body.code] ++ numberOctets 2 r.number.toNat ++ numberOctets 6 r.lineCount)
    (Config.reportFields r.body)

/-- The request header of a REQUEST frame that came by its fields, and its body (Table 9-5). -/
def requestPayload (h : ReqHeader) (f : RequestForm) : List Byte :=
  payloadOf [octet (formCode f), h.tag, h.flags, h.mask] (requestOctets f)

/-- The octets of a frame at the transmit pin: a frame that came as octets unchanged, and every other frame with its header and
the check that RI forms (R168, R172, R180 to R182). -/
def wireOctets : RingFrame → List Byte
  | .octets os => os
  | .request h f => frameOctets h.target h.origin 6 h.sequence (requestPayload h f)
  | .directive target origin seq d => frameOctets (octet target) (origin.setWidth 8) 5 seq (directivePayload d)
  | .answer target origin seq a => frameOctets target (origin.setWidth 8) 7 seq (answerPayload a)
  | .report target origin seq r => frameOctets (octet target) (origin.setWidth 8) 8 seq (reportPayload r)

end Sys2Proof.Machine
end

