-- ==== Sys2Proof/Machine/Commands.lean ====
section
/-! DEFINITION. The meaning of every command of spec/opcode_table.json: one definition per row. No command stops the part. -/

namespace Sys2Proof.Machine

/-- The outcome of a command: a next state, or a stop. -/
abbrev Result := Host.Outcome State Fault Refusal

/-- A request whose body fits its code, or one whose body has another length (R188, check 4). -/
def sizedForm {α : Type} (code : Nat) (make : α → Body) : Sized α → RequestForm
  | .fields a => .body (make a)
  | .wrongSize => .wrongSize code

/-- RESET_INPUT (10.3, R17, R42, R70, R85, R109, R135, R154, R167, R173, R185, R203). -/
def execResetInput (straps : BitVec 6) (s : State) : Result := .next (resetPart straps s)

/-- RECEIVE_FRAME (R168 to R173). -/
def execReceiveFrame (f : RxFrame) (s : State) : Result :=
  match f with
  | .octets os => .next (receiveOctets os s)
  | .request h r => .next (receiveRequest h r s)

/-- TALLY (R7 to R13, Table 9-3). -/
def execTally (h : FrameHeader) (delta : Word16) (flags : Byte) (s : State) : Result :=
  .next (receiveObserved h 1 (octetsOf delta ++ [flags]) (.tally h.sequence delta flags) s)

/-- READING (R155, Table 9-3). -/
def execReading (h : FrameHeader) (channel : Byte) (value : Word16) (s : State) : Result :=
  .next (receiveObserved h 2 (channel :: octetsOf value) (.reading channel value) s)

/-- STATE (R176, Table 9-3). -/
def execStateFrame (h : FrameHeader) (w offset : Word16) (s : State) : Result :=
  .next (receiveObserved h 3 (octetsOf w ++ octetsOf offset) (.state w offset) s)

/-- CUT (R88 to R96, Table 9-3). -/
def execCut (h : FrameHeader) (offset : Word16) (flags : Byte) (s : State) : Result :=
  .next (receiveObserved h 4 (octetsOf offset ++ [flags]) (.cut h.sequence offset flags) s)

/-- TRANSMIT (R183). A part in PASSIVE originates nothing and holds no frame (R173). -/
def execTransmit (s : State) : Result := .next (if s.passive then s else transmitNext s)

/-- ACCEL_TIMEOUT (R129). -/
def execAccelTimeout (stand : Nat) (s : State) : Result := .next (accelExpiry evaluate stand s)

/-- PASTE_TIMEOUT (R129, R135). -/
def execPasteTimeout (stand : Nat) (s : State) : Result := .next (pasteExpiry evaluate stand s)

/-- TRANSFER_TIMEOUT (R105). -/
def execTransferTimeout (s : State) : Result := .next (transferExpiry s)

/-- STANDBY_TIMEOUT (R163). -/
def execStandbyTimeout (zone : Nat) (s : State) : Result := .next (standbyExpiry evaluate zone s)

/-- UNKNOWN_REQUEST: a REQUEST whose header is incomplete or whose code is outside Table 10-1 (R188). -/
def execUnknownRequest (h : FrameHeader) (payload : List Byte) (s : State) : Result :=
  .next (receiveObserved h 6 payload (.request payload) s)

/-- IDENTIFY (R197). -/
def execIdentify (h : ReqHeader) (b : Sized Unit) (s : State) : Result :=
  .next (receiveRequest h (sizedForm 1 (fun _ => .identify) b) s)

/-- READ (R190). -/
def execRead (h : ReqHeader) (b : Sized (Coded Item × Nat)) (s : State) : Result :=
  .next (receiveRequest h (sizedForm 2 (fun x => .read x.1 x.2) b) s)

/-- READ_FAULT (R169). -/
def execReadFault (h : ReqHeader) (b : Sized Nat) (s : State) : Result :=
  .next (receiveRequest h (sizedForm 2 (fun i => .read (.named .fault) i) b) s)

/-- WRITE (R191). -/
def execWrite (h : ReqHeader) (b : Sized (Coded Item × Nat)) (s : State) : Result :=
  .next (receiveRequest h (sizedForm 3 (fun x => .writePlain x.1 x.2) b) s)

/-- WRITE_LINE_GEOMETRY (R4). -/
def execWriteLineGeometry (h : ReqHeader) (b : Sized Geometry) (s : State) : Result :=
  .next (receiveRequest h (sizedForm 3 (fun g => .writeLineGeometry g) b) s)

/-- WRITE_REJECT_SPAN (R22). -/
def execWriteRejectSpan (h : ReqHeader) (b : Sized (Nat × Span)) (s : State) : Result :=
  .next (receiveRequest h (sizedForm 3 (fun x => .writeRejectSpan x.1 x.2) b) s)

/-- WRITE_STAND_CONFIGURATION (R110). -/
def execWriteStandConfiguration (h : ReqHeader) (b : Sized Nat) (s : State) : Result :=
  .next (receiveRequest h (sizedForm 3 (fun n => .writeStandConfiguration n) b) s)

/-- WRITE_STAND (R110). -/
def execWriteStand (h : ReqHeader) (b : Sized (Nat × StandFields)) (s : State) : Result :=
  .next (receiveRequest h (sizedForm 3 (fun x => .writeStand x.1 x.2) b) s)

/-- WRITE_GRADE (R137). -/
def execWriteGrade (h : ReqHeader) (b : Sized (Nat × Option Grade)) (s : State) : Result :=
  .next (receiveRequest h (sizedForm 3 (fun x => .writeGrade x.1 x.2) b) s)

/-- WRITE_ZONE (R138). -/
def execWriteZone (h : ReqHeader) (b : Sized (Nat × ZoneFields)) (s : State) : Result :=
  .next (receiveRequest h (sizedForm 3 (fun x => .writeZone x.1 x.2) b) s)

/-- WRITE_PROFILE (R139). -/
def execWriteProfile (h : ReqHeader) (b : Sized (Nat × Profile)) (s : State) : Result :=
  .next (receiveRequest h (sizedForm 3 (fun x => .writeProfile x.1 x.2) b) s)

/-- WRITE_STATION (R174). -/
def execWriteStation (h : ReqHeader) (b : Sized (Nat × StationForm)) (s : State) : Result :=
  .next (receiveRequest h (sizedForm 3 (fun x => .writeStation x.1 x.2) b) s)

/-- LOAD_REJECT_SPAN (R22, R192). -/
def execLoadRejectSpan (h : ReqHeader) (b : Sized (Nat × List Span)) (s : State) : Result :=
  .next (receiveRequest h (sizedForm 4 (fun x => .loadRejectSpan x.1 x.2) b) s)

/-- LOAD_GRADE (R137, R192). -/
def execLoadGrade (h : ReqHeader) (b : Sized (Nat × List (Option Grade))) (s : State) : Result :=
  .next (receiveRequest h (sizedForm 4 (fun x => .loadGrade x.1 x.2) b) s)

/-- LOAD_ZONE (R138, R192). -/
def execLoadZone (h : ReqHeader) (b : Sized (Nat × List ZoneFields)) (s : State) : Result :=
  .next (receiveRequest h (sizedForm 4 (fun x => .loadZone x.1 x.2) b) s)

/-- LOAD_PROFILE (R139, R192). -/
def execLoadProfile (h : ReqHeader) (b : Sized (Nat × List Profile)) (s : State) : Result :=
  .next (receiveRequest h (sizedForm 4 (fun x => .loadProfile x.1 x.2) b) s)

/-- LOAD_STATION (R174, R192). -/
def execLoadStation (h : ReqHeader) (b : Sized (Nat × List StationForm)) (s : State) : Result :=
  .next (receiveRequest h (sizedForm 4 (fun x => .loadStation x.1 x.2) b) s)

/-- START (R194, R195). -/
def execStart (h : ReqHeader) (b : Sized Unit) (s : State) : Result :=
  .next (receiveRequest h (sizedForm 5 (fun _ => .start) b) s)

/-- RESTART (R196). -/
def execRestart (h : ReqHeader) (b : Sized Unit) (s : State) : Result :=
  .next (receiveRequest h (sizedForm 6 (fun _ => .restart) b) s)

/-- MODE_HOLD (R60). -/
def execModeHold (h : ReqHeader) (b : Sized Unit) (s : State) : Result :=
  .next (receiveRequest h (sizedForm 7 (fun _ => .mode (.named .hold)) b) s)

/-- MODE_SINGLE (R60). -/
def execModeSingle (h : ReqHeader) (b : Sized Unit) (s : State) : Result :=
  .next (receiveRequest h (sizedForm 7 (fun _ => .mode (.named .single)) b) s)

/-- MODE_AUTO (R60). -/
def execModeAuto (h : ReqHeader) (b : Sized Unit) (s : State) : Result :=
  .next (receiveRequest h (sizedForm 7 (fun _ => .mode (.named .auto)) b) s)

/-- ORDER_APPEND (R46). -/
def execOrderAppend (h : ReqHeader) (b : Sized (Nat × OrderFields)) (s : State) : Result :=
  .next (receiveRequest h (sizedForm 8 (fun x => .orderAppend x.1 x.2) b) s)

/-- ORDER_AMEND (R63). -/
def execOrderAmend (h : ReqHeader) (b : Sized (OrderId × OrderFields)) (s : State) : Result :=
  .next (receiveRequest h (sizedForm 9 (fun x => .orderAmend x.1 x.2) b) s)

/-- ORDER_CANCEL (R65). -/
def execOrderCancel (h : ReqHeader) (b : Sized OrderId) (s : State) : Result :=
  .next (receiveRequest h (sizedForm 10 (fun o => .orderCancel o) b) s)

/-- ORDER_FRONT (R66). -/
def execOrderFront (h : ReqHeader) (b : Sized OrderId) (s : State) : Result :=
  .next (receiveRequest h (sizedForm 11 (fun o => .orderFront o) b) s)

/-- ROLL_PREPARE (R112). -/
def execRollPrepare (h : ReqHeader) (b : Sized (Nat × Coded Arm × RollFields)) (s : State) : Result :=
  .next (receiveRequest h (sizedForm 12 (fun x => .rollPrepare x.1 x.2.1 x.2.2) b) s)

/-- ROLL_WITHDRAW (R113). -/
def execRollWithdraw (h : ReqHeader) (b : Sized Nat) (s : State) : Result :=
  .next (receiveRequest h (sizedForm 13 (fun k => .rollWithdraw k) b) s)

/-- SPLICE_NOW (R118). -/
def execSpliceNow (h : ReqHeader) (b : Sized Nat) (s : State) : Result :=
  .next (receiveRequest h (sizedForm 14 (fun k => .spliceNow k) b) s)

/-- SPLICE_ABORT (R131). -/
def execSpliceAbort (h : ReqHeader) (b : Sized Nat) (s : State) : Result :=
  .next (receiveRequest h (sizedForm 15 (fun k => .spliceAbort k) b) s)

/-- LATCH_CLEAR (R161). -/
def execLatchClear (h : ReqHeader) (b : Sized (Nat × LevelSet)) (s : State) : Result :=
  .next (receiveRequest h (sizedForm 16 (fun x => .latchClear x.1 x.2) b) s)

/-- CLEAR_STOP (R15). -/
def execClearStop (h : ReqHeader) (b : Sized (Coded StopCause)) (s : State) : Result :=
  .next (receiveRequest h (sizedForm 17 (fun c => .clearStop c) b) s)

/-- MARK (R198). -/
def execMark (h : ReqHeader) (b : Sized (WebPos × Nat)) (s : State) : Result :=
  .next (receiveRequest h (sizedForm 18 (fun x => .mark x.1 x.2) b) s)

/-- TRIGGER_SET (R199). -/
def execTriggerSet (h : ReqHeader) (b : Sized (TriggerForm × Nat × Byte × HeldBody)) (s : State) : Result :=
  .next (receiveRequest h (sizedForm 19 (fun x => .triggerSet x.1 x.2.1 x.2.2.1 x.2.2.2) b) s)

/-- TRIGGER_CLEAR (R200). -/
def execTriggerClear (h : ReqHeader) (b : Sized ClearName) (s : State) : Result :=
  .next (receiveRequest h (sizedForm 20 (fun n => .triggerClear n) b) s)

/-- LOAD (R192). -/
def execLoad (h : ReqHeader) (b : Sized (Coded Item × Nat × Nat)) (s : State) : Result :=
  .next (receiveRequest h (sizedForm 4 (fun x => .loadPlain x.1 x.2.1 x.2.2) b) s)

end Sys2Proof.Machine
end

