-- ==== Sys2Proof/Machine/Dispatch.lean ====
section
/-! DEFINITION. The meaning of each command, one arm per constructor of Instr. -/

namespace Sys2Proof.Machine

def exec (i : Instr) (s : State) : Host.Outcome State Fault Refusal :=
  match i with
  | .resetInput straps => Sys2Proof.Machine.execResetInput straps s
  | .receiveFrame f => Sys2Proof.Machine.execReceiveFrame f s
  | .tally h delta flags => Sys2Proof.Machine.execTally h delta flags s
  | .reading h channel value => Sys2Proof.Machine.execReading h channel value s
  | .stateFrame h w offset => Sys2Proof.Machine.execStateFrame h w offset s
  | .cut h offset flags => Sys2Proof.Machine.execCut h offset flags s
  | .transmit => Sys2Proof.Machine.execTransmit s
  | .accelTimeout stand => Sys2Proof.Machine.execAccelTimeout stand s
  | .pasteTimeout stand => Sys2Proof.Machine.execPasteTimeout stand s
  | .transferTimeout => Sys2Proof.Machine.execTransferTimeout s
  | .standbyTimeout zone => Sys2Proof.Machine.execStandbyTimeout zone s
  | .identify h b => Sys2Proof.Machine.execIdentify h b s
  | .read h b => Sys2Proof.Machine.execRead h b s
  | .readFault h b => Sys2Proof.Machine.execReadFault h b s
  | .write h b => Sys2Proof.Machine.execWrite h b s
  | .writeLineGeometry h b => Sys2Proof.Machine.execWriteLineGeometry h b s
  | .writeRejectSpan h b => Sys2Proof.Machine.execWriteRejectSpan h b s
  | .writeStandConfiguration h b => Sys2Proof.Machine.execWriteStandConfiguration h b s
  | .writeStand h b => Sys2Proof.Machine.execWriteStand h b s
  | .writeGrade h b => Sys2Proof.Machine.execWriteGrade h b s
  | .writeZone h b => Sys2Proof.Machine.execWriteZone h b s
  | .writeProfile h b => Sys2Proof.Machine.execWriteProfile h b s
  | .writeStation h b => Sys2Proof.Machine.execWriteStation h b s
  | .loadRejectSpan h b => Sys2Proof.Machine.execLoadRejectSpan h b s
  | .loadGrade h b => Sys2Proof.Machine.execLoadGrade h b s
  | .loadZone h b => Sys2Proof.Machine.execLoadZone h b s
  | .loadProfile h b => Sys2Proof.Machine.execLoadProfile h b s
  | .loadStation h b => Sys2Proof.Machine.execLoadStation h b s
  | .start h b => Sys2Proof.Machine.execStart h b s
  | .restart h b => Sys2Proof.Machine.execRestart h b s
  | .modeHold h b => Sys2Proof.Machine.execModeHold h b s
  | .modeSingle h b => Sys2Proof.Machine.execModeSingle h b s
  | .modeAuto h b => Sys2Proof.Machine.execModeAuto h b s
  | .orderAppend h b => Sys2Proof.Machine.execOrderAppend h b s
  | .orderAmend h b => Sys2Proof.Machine.execOrderAmend h b s
  | .orderCancel h b => Sys2Proof.Machine.execOrderCancel h b s
  | .orderFront h b => Sys2Proof.Machine.execOrderFront h b s
  | .rollPrepare h b => Sys2Proof.Machine.execRollPrepare h b s
  | .rollWithdraw h b => Sys2Proof.Machine.execRollWithdraw h b s
  | .spliceNow h b => Sys2Proof.Machine.execSpliceNow h b s
  | .spliceAbort h b => Sys2Proof.Machine.execSpliceAbort h b s
  | .latchClear h b => Sys2Proof.Machine.execLatchClear h b s
  | .clearStop h b => Sys2Proof.Machine.execClearStop h b s
  | .mark h b => Sys2Proof.Machine.execMark h b s
  | .triggerSet h b => Sys2Proof.Machine.execTriggerSet h b s
  | .triggerClear h b => Sys2Proof.Machine.execTriggerClear h b s
  | .unknownRequest h payload => Sys2Proof.Machine.execUnknownRequest h payload s
  | .load h b => Sys2Proof.Machine.execLoad h b s

end Sys2Proof.Machine
end

