-- ==== Sys2Proof/Safety.lean ====
section
/-! DEFINITION. What holds of the part at every moment, in the terms the statements use: the laws of the directive queue (R179),
of the line's records (R18, R32, R43, R111, R193), of the ring's stores (R172, R178, R181, R182) and of the tables' sizes; which
requests reach their rule and which frames are observed; and what the line's work leaves as it was. -/

namespace Sys2Proof.Machine

/-- A directive is a LINE_REQUEST (R179). -/
def isLineRequest (d : PlacedDirective) : Bool :=
  match d.directive with
  | .lineRequest _ => true
  | _ => false

/-- A directive is a SETPOINT for this zone (R179). -/
def isSetpointOf (z : Nat) (d : PlacedDirective) : Bool :=
  match d.directive with
  | .setpoint n _ _ => n == z
  | _ => false

/-- The laws of the directive queue (R179): at most 47 directives other than LINE_REQUEST, at most one LINE_REQUEST, and at most
one SETPOINT for a zone. -/
structure DirectiveLaws (q : List PlacedDirective) : Prop where
  others : (q.filter fun d => !isLineRequest d).length ≤ 47
  oneRequest : (q.filter isLineRequest).length ≤ 1
  oneSetpoint : ∀ z, (q.filter (isSetpointOf z)).length ≤ 1

/-- The laws of the line's records that every block keeps: the directive queue's (R179), the report queue's size (R182), the order
queue's size (R43), the map in ascending web position (R25), every uncertainty in its range (R32), every carry in its range
(R111), and a map with no mark in CONFIGURING (R18, R193). -/
structure LineLaws (s : State) : Prop where
  directives : DirectiveLaws s.ri.directives
  reports : s.ri.reports.length ≤ Config.reportCapacity
  orders : s.os.orders.length ≤ Config.orderCapacity
  mapOrder : s.sm.marks.Pairwise fun a b => a.w ≤ b.w
  uncertainty : ∀ m ∈ s.sm.marks, m.uncertainty ≤ uncertaintyMax
  carry : ∀ r ∈ s.sc.stands, r.carry ≤ 999
  noMarks : s.me.running = false → s.sm.marks = []

/-- The laws of the ring's stores: the forwarding buffer's size (R172), at most one answer in a slot (R181), at most two held
reports for an entry and a full report queue while a report is held (R178), and the line count's range (R1). -/
structure RingLaws (s : State) : Prop where
  forwarding : s.ri.forwarding.length ≤ Config.forwardingCapacity
  answers : (s.ri.answers.map (·.slot)).Nodup
  slots : ∀ i, (s.ri.held.filter fun h => h.entry == i).length ≤ 2
  held : s.ri.held ≠ [] → s.ri.reports.length = Config.reportCapacity
  lineCount : s.pt.lineCount ≤ lineCountMax

/-- The sizes of the tables: stations (R174), reject spans (R22), grades (R136), zones (R138), profiles (R139), stands (R110) and
trigger entries (Table 10-5). -/
structure TableSizes (s : State) : Prop where
  stations : s.ri.stations.length = Config.stationCapacity
  spans : s.sm.spans.length = 9
  grades : s.zr.grades.length = Config.gradeCapacity
  zones : s.zr.zones.length = Config.zoneCapacity
  trips : s.ts.zones.length = Config.zoneCapacity
  profiles : s.zr.profiles.length = Config.profileCapacity
  stands : s.sc.stands.length = 0 ∨ s.sc.stands.length = 3 ∨ s.sc.stands.length = 5
  triggers : s.me.triggers.length = Config.triggerCapacity

/-- A splice that holds the stand's arms to its work: from ARMED to the end of PASTING (Table 6-2). -/
def SpliceState.working : SpliceState → Bool
  | .armed => true
  | .accelerating => true
  | .matched => true
  | .pasting => true
  | _ => false

/-- The laws of the map's marks: at most 128 (R18), no two with one id (R20), at most 122 that are not joints (R26), every joint the
one its stand refers to, so that no stand has two (R18, R128), and no such reference while a splice works at the stand (R120). -/
structure MapLaws (s : State) : Prop where
  bound : s.sm.marks.length ≤ Config.mapCapacity
  ids : (s.sm.marks.map (·.id)).Nodup
  process : (s.sm.marks.filter fun m => !m.isJoint).length ≤ Config.processTier
  joints : ∀ m ∈ s.sm.marks, ∀ k, m.kind = .joint k → ∃ r, standOf s k = some r ∧ r.jointRef = some m.id
  unarmed : ∀ k r, standOf s k = some r → r.splice.state.working = true → r.jointRef = none

/-- An order is the current order by its feed state (R43). -/
def FeedState.isCurrent : FeedState → Bool
  | .feeding => true
  | .committed => true
  | _ => false

/-- The laws of the order queue: no two orders with one number and make-up index (R43, R46, R68), at most one order in FEEDING or
COMMITTED, at most one NEXT, and a NEXT order only beside a COMMITTED one (R47). -/
structure OrderLaws (s : State) : Prop where
  ids : (s.os.orders.map (·.id)).Nodup
  current : (s.os.orders.filter fun o => o.feed.isCurrent).length ≤ 1
  next : (s.os.orders.filter fun o => o.feed == .next).length ≤ 1
  beside : (∃ o ∈ s.os.orders, o.feed = .next) → ∃ o ∈ s.os.orders, o.feed = .committed

/-- The roll ids on a stand's arms (R111). -/
def rollIds (r : Stand) : List Nat := (r.active.map (·.rollId)).toList ++ (r.standby.roll.map (·.rollId)).toList

/-- Every live trip flag is latched (R158). -/
structure Latched (t : ZoneTrip) : Prop where
  low : t.live.low = true → t.latched.low = true
  high : t.live.high = true → t.latched.high = true
  cutout : t.live.cutout = true → t.latched.cutout = true

/-- A state that keeps every law above: those of the line, the ring, the tables' sizes, the map and the orders, no roll id on two
arms (R111, R112), and every live trip flag latched (R158). -/
structure Safe (s : State) : Prop where
  line : LineLaws s
  ring : RingLaws s
  sizes : TableSizes s
  map : MapLaws s
  orders : OrderLaws s
  rolls : (s.sc.stands.flatMap rollIds).Nodup
  latches : ∀ t ∈ s.ts.zones, Latched t

/-! ## Requests and observed frames -/

/-- A REQUEST frame with this header reaches the Management Engine from this source: the part is not in PASSIVE (R173), the frame
is not the part's own and is addressed to it (R170), its origin is the source (R186), and the source's answer slot is free
(R187). -/
structure Reaches (h : ReqHeader) (src : MgmtSource) (s : State) : Prop where
  active : s.passive = false
  notOwn : h.origin ≠ ownOctet s
  mine : h.target = ownOctet s
  source : requestSource s h.origin = some src
  room : (s.ri.answers.any fun a => a.slot == slotOf (some src)) = false

/-- The state with the answer to a request in its source's slot: the answer goes to the origin and echoes code and tag (R181,
R189). -/
def answered (h : ReqHeader) (src : MgmtSource) (code : Byte) (reply : Reply) (s : State) : State :=
  { s with ri := { s.ri with answers := s.ri.answers ++ [⟨slotOf (some src), h.origin, code, h.tag, reply⟩] } }

/-- A frame with this header is forwarded and observed from the station entry `e` at index `i`: the part is not in PASSIVE, the
frame is neither the part's own nor addressed to it, and its origin is the entry's address (R170, R171). -/
structure Observes (h : FrameHeader) (i : Nat) (e : Station) (s : State) : Prop where
  active : s.passive = false
  notOwn : h.origin ≠ ownOctet s
  notMine : h.target ≠ ownOctet s
  entry : stationAt s h.origin.toNat = some (i, e)

/-! ## What the line's work leaves as it was -/

/-- A stand's settings: its record without what its rolls and its splice change (Table 6-1). -/
def standSettings (r : Stand) : Stand :=
  { newStand with
    role := r.role, takeup := r.takeup, effOffset := r.effOffset, spliceLead := r.spliceLead, runOut := r.runOut,
    maxSpeed := r.maxSpeed, accelTimeout := r.accelTimeout, pasteTimeout := r.pasteTimeout, address := r.address }

/-- What is the same before and after the work that commits, splices, zones, knives, trips and trigger entries do: the ring
other than its directive and report queues, the line count with the tally intake and the geometry, the reject spans, the
tables, the stands' and zones' settings, the intake of cuts and readings, the part state, the waiting commands and the counter
of free values. -/
structure SameFrame (s t : State) : Prop where
  ownAddress : t.ri.ownAddress = s.ri.ownAddress
  stations : t.ri.stations = s.ri.stations
  held : t.ri.held = s.ri.held
  faultRecord : t.ri.faultRecord = s.ri.faultRecord
  frameFaults : t.ri.frameFaults = s.ri.frameFaults
  returned : t.ri.returned = s.ri.returned
  stray : t.ri.stray = s.ri.stray
  malformed : t.ri.malformed = s.ri.malformed
  overruns : t.ri.overruns = s.ri.overruns
  forwarding : t.ri.forwarding = s.ri.forwarding
  answers : t.ri.answers = s.ri.answers
  originSeq : t.ri.originSeq = s.ri.originSeq
  txPin : t.ri.txPin = s.ri.txPin
  lineCount : t.pt.lineCount = s.pt.lineCount
  lastSeq : t.pt.lastSeq = s.pt.lastSeq
  speed : t.pt.speed = s.pt.speed
  stopped : t.pt.stopped = s.pt.stopped
  lostTallies : t.pt.lostTallies = s.pt.lostTallies
  geometry : t.pt.geometry = s.pt.geometry
  spans : t.sm.spans = s.sm.spans
  cutSeq : t.cs.lastSeq = s.cs.lastSeq
  stands : t.sc.stands.map standSettings = s.sc.stands.map standSettings
  grades : t.zr.grades = s.zr.grades
  profiles : t.zr.profiles = s.zr.profiles
  zones : t.zr.zones.map restartedZone = s.zr.zones.map restartedZone
  readings : t.ts.zones.map (·.lastReading) = s.ts.zones.map (·.lastReading)
  readingsTaken : t.ts.readingsTaken = s.ts.readingsTaken
  unmatched : t.ts.unmatched = s.ts.unmatched
  running : t.me.running = s.me.running
  discards : t.me.discards = s.me.discards
  triggers : t.me.triggers.length = s.me.triggers.length
  freeIndex : t.freeIndex = s.freeIndex
  pending : t.pending = s.pending

end Sys2Proof.Machine
end

