-- ==== Sys2Proof/Certificates/Slice0/Obligations.lean ====
section
/-! DEFINITION. The statements about the model, one per definition, in the order of OBLIGATIONS.json. -/

open Sys2Proof Sys2Proof.Machine

/-! ## The part as a machine -/

/-- One step with the command `c` at the front of the queue is `exec c` on the state with the queue's rest; on an empty queue
the part idles. The queue and the idling are the model's (log entry 1). -/
def Obligations.StepRunsTheFrontCommand : Prop :=
  (∀ (c : Instr) (rest : List Instr) (s : State),
     step { s with pending := c :: rest } = exec c { s with pending := rest }) ∧
  (∀ s : State, s.pending = [] → step s = .next s)

/-- Every command, on any state, ends in a next state, which has the waiting commands as they were: the part never stops, and no
command takes from the queue or adds to it. The queue of waiting commands is the model's own (log entries 1 and 41). -/
def Obligations.EveryCommandAnswersNext : Prop :=
  ∀ (c : Instr) (s : State), ∃ t, exec c s = .next t ∧ t.pending = s.pending

/-- The reset input gives every block the values that the rules of the ten blocks name, and reads the straps; the power-on
records are those of Tables 1-1, 2-3 and 7-1 and of the rules of the knife stations, profiles and trips. The transfer position
is the model's choice (log entry 8), as are an empty transmit pin (log entry 9), the cleared memory of a refused window in a
knife station's record (log entry 17), and the kept queue and counter of free values (log entry 41). -/
def Obligations.ResetInputGivesPowerOnValues : Prop :=
  ∀ (straps : BitVec 6) (s : State), ∃ t, exec (.resetInput straps) s = .next t ∧
    t.ri = { ownAddress := straps, stations := List.replicate 32 none, held := [], faultRecord := none, frameFaults := 0,
             returned := 0, stray := 0, malformed := 0, overruns := 0, discardedDirectives := 0, reportsLost := 0,
             forwarding := [], directives := [], answers := [], reports := [], originSeq := 0, reportNumber := 0,
             txPin := none } ∧
    t.pt = { lineCount := 0, lastSeq := none, speed := 0, stopped := true, lostTallies := 0, trackingWarned := false,
             geometry := powerOnGeometry, slow := [], stop := [] } ∧
    t.sm.marks = [] ∧ t.sm.nextId = 0 ∧ t.sm.spans = powerOnSpans ∧
    t.os = { orders := [], mode := .hold, holdCause := .none, heldReason := none, compensation := 0, credits := [] } ∧
    t.kc = { a := idleKnife, b := idleKnife } ∧
    t.cs.lastSeq = none ∧ t.cs.prevWc = none ∧ t.cs.plan = [] ∧ t.cs.gate = ⟨true, none⟩ ∧ t.cs.stackCounter = 0 ∧
    t.cs.counters = ⟨0, 0, 0, 0, 0, 0, 0⟩ ∧ t.cs.stacker.transferring = false ∧ t.cs.stacker.current = none ∧
    t.cs.stacker.deck = none ∧ t.cs.stacker.faulted = false ∧ t.cs.stacker.timer = none ∧
    t.sc.stands = [] ∧
    t.zr = { grades := List.replicate 32 none, zones := List.replicate 16 powerOnZone,
             profiles := List.replicate 8 powerOnProfile } ∧
    t.ts = { zones := List.replicate 16 clearTrip, readingsTaken := 0, unmatched := 0 } ∧
    t.me = { running := false, triggers := List.replicate 8 none, discards := 0, feedStarts := [] } ∧
    t.freeIndex = s.freeIndex ∧ t.pending = s.pending ∧
    powerOnGeometry =
      { knifeAOffset := 0, knifeBOffset := 0, cutoffOffset := 0, gateOffset := 0, dPre := 20000, maxDelta := 120,
        tallyInterval := 10, warnLimit := 1000, mergeGap := 500, knifeLead := 3000, cutoffLead := 2000, gateDwell := 600,
        shortTolerance := 5, deckCapacity := 40, transferTimeout := 15, minLane := 80, minTrim := 8 } ∧
    powerOnSpans = List.replicate 6 ⟨150, 150⟩ ++ [⟨0, 0⟩, ⟨300, 900⟩, ⟨0, 0⟩] ∧
    idleKnife = { state := .idle, held := none, served := [], boardPresent := false, lift := none, engage := none,
                  window := none, lateRefused := false } ∧
    powerOnZone =
      { placed := false, kind := .plate, offset := 0, station := none, channel := 0, rampLead := 0, profile := 0,
        standbyDelay := 0, standbySetpoint := 0, bandLow := -100, bandHigh := 100, cutout := 32767, hysteresis := 10,
        lowActions := ⟨true, false, false, false⟩, highActions := ⟨true, false, false, false⟩,
        cutoutActions := ⟨true, false, false, true⟩, run := .idle, grade := none, current := none, ramp := none,
        returnValue := none, lastApproach := none, priorGrade := none, priorTarget := none } ∧
    powerOnProfile = { stages := [⟨500, 500⟩, ⟨500, 500⟩], markTransition := false } ∧
    clearTrip =
      { live := ⟨false, false, false⟩, latched := ⟨false, false, false⟩, readingPart := false, stationFault := false,
        windows := ⟨none, none, none⟩, timer := none, held := false, lastReading := none }

/-! ## The ring -/

/-- A part in PASSIVE transmits every frame it receives unchanged, faulted or not, changes nothing else, and originates none
(the frame held at the transmit pin is the model's, log entry 9). -/
def Obligations.PassivePartOnlyRepeats : Prop :=
  ∀ s : State, s.passive = true →
    (∀ os, exec (.receiveFrame (.octets os)) s = .next { s with ri := { s.ri with txPin := some (.octets os) } }) ∧
    (∀ h f, exec (.receiveFrame (.request h f)) s = .next { s with ri := { s.ri with txPin := some (.request h f) } }) ∧
    exec .transmit s = .next s

/-- A frame built with its check passes the check, for every payload of at most 240 octets; a frame passes exactly when its
octet count is 5 + payload length + 2, its payload length is at most 240, and its last two octets, high octet first, are the
inverted 16-bit sum of the octets before them; and every frame the part originates, or forwards having received it by its
fields, goes out with such a check. A directive's payload begins with its code, an answer's with code, tag, result, reason and
detail, a report's with its kind, its 16-bit number and its 48-bit line count, high octets first; the codes of directives,
reasons, details and report kinds are those of the manual's tables, in order from 1. Nothing stands behind the code of ABORT,
the header of an answer with neither body nor subject, or that of IDENTIFY, START and RESTART; what stands behind the others is
a free value (log entry 24). -/
def Obligations.CheckIsTheInvertedSum : Prop :=
  (∀ (target origin kind sequence : Byte) (payload : List Byte), payload.length ≤ 240 →
    passesCheck (frameOctets target origin kind sequence payload) = true) ∧
  (∀ (t o k q l : Byte) (body : List Byte) (hi lo : Byte),
    passesCheck ([t, o, k, q, l] ++ body ++ [hi, lo]) = true ↔
      body.length = l.toNat ∧ l.toNat ≤ 240 ∧
        hi ++ lo = ~~~(BitVec.ofNat 16 ((([t, o, k, q, l] ++ body).map (·.toNat)).sum))) ∧
  (∀ (target : Nat) (asker : Byte) (own : BitVec 6) (seq : Byte) (d : Directive) (a : Answer) (r : Report) (h : ReqHeader)
     (f : RequestForm),
     passesCheck (wireOctets (.directive target own seq d)) = true ∧ passesCheck (wireOctets (.answer asker own seq a)) = true ∧
     passesCheck (wireOctets (.report target own seq r)) = true ∧ passesCheck (wireOctets (.request h f)) = true) ∧
  (∀ d, (directivePayload d).head? = some (BitVec.ofNat 8 d.code)) ∧
  (∀ (target : Nat) (own : BitVec 6) (seq : Byte), directivePayload .abort = [9] ∧
    wireOctets (.directive target own seq .abort) = frameOctets (BitVec.ofNat 8 target) (own.setWidth 8) 5 seq [9]) ∧
  (∀ slot target code tag, answerPayload ⟨slot, target, code, tag, .accepted .none⟩ = [code, tag, 0, 0, 0, 0]) ∧
  (∀ slot target code tag r d, answerPayload ⟨slot, target, code, tag, .refused r d .none⟩ =
    [code, tag, 1, BitVec.ofNat 8 r.code, 0, BitVec.ofNat 8 d.code]) ∧
  (∀ (h : ReqHeader) (b : Body), b ∈ [Body.identify, .start, .restart] →
    requestPayload h (.body b) = [BitVec.ofNat 8 b.code, h.tag, h.flags, h.mask]) ∧
  (∀ (h : ReqHeader) (f : RequestForm), (requestPayload h f).take 4 = [BitVec.ofNat 8 (formCode f), h.tag, h.flags, h.mask]) ∧
  (∀ slot target code tag b,
    (answerPayload ⟨slot, target, code, tag, .accepted b⟩).take 6 = [code, tag, 0, 0, 0, 0]) ∧
  (∀ slot target code tag r d x,
    (answerPayload ⟨slot, target, code, tag, .refused r d x⟩).take 6 =
      [code, tag, 1, BitVec.ofNat 8 r.code, 0, BitVec.ofNat 8 d.code]) ∧
  (∀ r : Report, (reportPayload r).take 9 = [BitVec.ofNat 8 r.body.code, r.number.extractLsb' 8 8, r.number.extractLsb' 0 8,
    BitVec.ofNat 8 (r.lineCount / 256 ^ 5), BitVec.ofNat 8 (r.lineCount / 256 ^ 4), BitVec.ofNat 8 (r.lineCount / 256 ^ 3),
    BitVec.ofNat 8 (r.lineCount / 256 ^ 2), BitVec.ofNat 8 (r.lineCount / 256), BitVec.ofNat 8 r.lineCount]) ∧
  (∀ (c : ChangeReport) (p : SpliceReport) (o : Order) (u : OrderOutcome) (k : StackReport) (t : TripReport) (n : KnifeReport)
     (e : CommitHeld) (m : MapReport) (g : TrackingReport) (f : TriggerReport) (stop : List StopCause) (slow : List SlowHolder)
     (limit : Option Nat) (placed : Option LineRequest),
    [ReportBody.change c, .splice p, .order o u, .stack k, .trip t, .knife n, .commitHeld e, .map m, .tracking g, .trigger f,
      .line stop slow limit placed].map ReportBody.code = List.range' 1 11) ∧
  [Reason.unknownRequest, .size, .parameter, .wrongState, .inUse, .tooLate, .full, .duplicate, .notFound, .notPermitted,
    .stillActive].map Reason.code = List.range' 1 11 ∧
  [Detail.fieldRange, .widthRange, .cutRange, .targetRange, .stackRange, .laneSum, .laneNarrow, .trimNarrow, .scoreOrder,
    .scoreEdge, .gradeMissing, .paperRange, .stageCount, .stageShort, .shareSum, .profileLong, .shareZero, .offsetOrder,
    .leadLong, .gateFar, .roleMissing, .noActiveRoll, .gradeEmpty, .notTriggerable, .linePassed].map Detail.code =
      List.range' 1 25 ∧
  (∀ (o : OrderId) (l : Layout) (e : Effective) (p : CutPlan) (b : Bool) (q : Word16) (w : WebPos) (n c : Nat) (v : Int)
     (r : LineRequest),
    [Directive.setLayout o l, .engage e, .lift e, .cutPlan p, .gate b e, .stackTransfer q w, .arm n, .paste n, .abort,
      .setpoint n c v, .lineRequest r].map Directive.code = List.range' 1 11)

/-- A frame that fails its check is discarded: it is counted, and recorded where the record is empty, and nothing else changes.
READ of the fault item answers with the record, or the empty form, and the count, and empties the record. The check received is
the last two octets, and the one formed is over the octets before them, high octet first. What a record holds of a frame too
short for its check octets, or for its origin, kind or length octet, is the model's choice (log entry 10), as is the index,
which the fault item ignores (log entry 19). -/
def Obligations.FaultedFrameIsRecordedUntilRead : Prop :=
  (∀ (os : List Byte) (s : State), s.passive = false → passesCheck os = false →
     exec (.receiveFrame (.octets os)) s = .next { s with ri := { s.ri with
       frameFaults := min (2 ^ 32 - 1) (s.ri.frameFaults + 1),
       faultRecord := match s.ri.faultRecord with
         | some r => some r
         | none => some { check := lengthRight os, origin := os[1]?, kind := os[2]?, length := os[4]?, octets := os.length,
                          received := checkReceived os, formed := checkOf (checkedOctets os), lineCount := s.pt.lineCount } } }) ∧
  (∀ (h : ReqHeader) (src : MgmtSource) (i : Nat) (s : State), Reaches h src s →
     exec (.readFault h (.fields i)) s = .next (answered h src 2
       (.accepted (.item (match s.ri.faultRecord with
         | none => .fault none none none none 0 none none 0 s.ri.frameFaults
         | some f => .fault (some f.check) f.origin f.kind f.length f.octets f.received (some f.formed) f.lineCount
             s.ri.frameFaults)))
       { s with ri := { s.ri with faultRecord := none } })) ∧
  (∀ (os : List Byte) (hi lo : Byte),
     (lengthRight os = true ↔ os.length = 7 + lengthOctet os ∧ lengthOctet os ≤ 240) ∧
     lengthOctet os = ((os[4]?).map (·.toNat)).getD 0 ∧
     (checkOf os).1 ++ (checkOf os).2 = ~~~(BitVec.ofNat 16 ((os.map (·.toNat)).sum)) ∧
     (os.length < 7 → checkReceived os = none ∧ checkedOctets os = os) ∧
     (5 ≤ os.length → checkReceived (os ++ [hi, lo]) = some (hi, lo) ∧ checkedOctets (os ++ [hi, lo]) = os))

/-- A frame that passes its check is taken by the first row of R170: the part's own frame is removed and counted (one of a
foreign kind too, log entry 53); a REQUEST for the part goes to the Management Engine; a frame for the part whose kind code is
outside the eight is not consumed but forwarded (R168); another frame for the part is consumed and counted stray; any other is
forwarded and observed. A forwarding buffer with fewer than two frames takes it at the tail; a buffer of two discards it and
counts an overrun. A frame of 3, 3, 4 or 3 payload octets of kind TALLY, READING, STATE or CUT holds the fields of Table 9-3,
16-bit fields high octet first, and is what the command of its fields stands for; one of kind REQUEST is what UNKNOWN_REQUEST
with its payload octets does. -/
def Obligations.PassingFrameIsTakenByFirstRow : Prop :=
  (∀ (os : List Byte) (s : State), s.passive = false → passesCheck os = true →
     let target := os.getD 0 0
     let origin := os.getD 1 0
     let c := contentOf (os.getD 2 0) (os.getD 3 0) ((os.drop 5).take (lengthOctet os))
     (origin = ownOctet s →
       exec (.receiveFrame (.octets os)) s =
         .next { s with ri := { s.ri with returned := min (2 ^ 32 - 1) (s.ri.returned + 1) } }) ∧
     (origin ≠ ownOctet s → target = ownOctet s → ∀ p, c = .request p →
       exec (.receiveFrame (.octets os)) s = .next (takePayload target origin (os.getD 3 0) p s)) ∧
     (origin ≠ ownOctet s → target = ownOctet s → 1 ≤ (os.getD 2 0).toNat → (os.getD 2 0).toNat ≤ 8 → (∀ p, c ≠ .request p) →
       exec (.receiveFrame (.octets os)) s =
         .next { s with ri := { s.ri with stray := min (2 ^ 32 - 1) (s.ri.stray + 1) } }) ∧
     (origin ≠ ownOctet s → target = ownOctet s → (os.getD 2 0 = 0 ∨ 8 < (os.getD 2 0).toNat) →
       exec (.receiveFrame (.octets os)) s = .next (forward (.octets os) s)) ∧
     (origin ≠ ownOctet s → target ≠ ownOctet s →
       exec (.receiveFrame (.octets os)) s = .next (observe origin c (forward (.octets os) s)))) ∧
  (∀ (f : RingFrame) (s : State),
     (s.ri.forwarding.length < 2 → forward f s = { s with ri := { s.ri with forwarding := s.ri.forwarding ++ [f] } }) ∧
     (2 ≤ s.ri.forwarding.length →
       forward f s = { s with ri := { s.ri with overruns := min (2 ^ 32 - 1) (s.ri.overruns + 1) } })) ∧
  (∀ (seq hi lo hi' lo' d : Byte),
     contentOf 1 seq [hi, lo, d] = .tally seq (hi ++ lo) d ∧ contentOf 2 seq [d, hi, lo] = .reading d (hi ++ lo) ∧
     contentOf 3 seq [hi, lo, hi', lo'] = .state (hi ++ lo) (hi' ++ lo') ∧
     contentOf 4 seq [hi, lo, d] = .cut seq (hi ++ lo) d ∧ (∀ p, contentOf 6 seq p = .request p) ∧
     octetsOf (hi ++ lo) = [hi, lo]) ∧
  (∀ s : State, ownOctet s = s.ri.ownAddress.setWidth 8) ∧
  (∀ (h : FrameHeader) (p : List Byte) (s : State), p.length ≤ 240 →
     exec (.receiveFrame (.octets (frameOctets h.target h.origin 6 h.sequence p))) s = exec (.unknownRequest h p) s) ∧
  (∀ (h : FrameHeader) (hi lo hi' lo' d : Byte) (s : State),
     let received := fun (kind : Byte) (payload : List Byte) =>
       exec (.receiveFrame (.octets (frameOctets h.target h.origin kind h.sequence payload))) s
     received 1 [hi, lo, d] = exec (.tally h (hi ++ lo) d) s ∧ received 2 [d, hi, lo] = exec (.reading h d (hi ++ lo)) s ∧
     received 3 [hi, lo, hi', lo'] = exec (.stateFrame h (hi ++ lo) (hi' ++ lo')) s ∧
     received 4 [hi, lo, d] = exec (.cut h (hi ++ lo) d) s)

/-- A frame of another node for another node, of kind TALLY, READING, STATE or CUT, is forwarded whatever it holds. From a
station whose role sends that kind (TALLY from ENCODER, READING from ZONE, CUT from CUTOFF, STATE from every role but
SUPERVISOR and PANEL), a payload length other than 3, 3, 4 and 3 octets counts as malformed, and nothing else changes; from a
station in another role, or from an origin in no entry of the station table, nothing but the forwarding happens, whatever the
length; the commands that give a frame by its fields do the same. A frame of any other kind is forwarded and does nothing else.
A station is found by its address, in the first entry that has it. -/
def Obligations.WrongLengthIsMalformed : Prop :=
  (∀ (os : List Byte) (s : State), s.passive = false → passesCheck os = true → os.getD 1 0 ≠ ownOctet s →
    os.getD 0 0 ≠ ownOctet s →
    let kind := (os.getD 2 0).toNat
    let size := lengthOctet os
    let forwarded := forward (.octets os) s
    1 ≤ kind → kind ≤ 4 →
    (stationAt s (os.getD 1 0).toNat = none → exec (.receiveFrame (.octets os)) s = .next forwarded) ∧
    (∀ i e, stationAt s (os.getD 1 0).toNat = some (i, e) →
      let sends := (kind = 1 ∧ e.role = .encoder) ∨ (kind = 2 ∧ e.role = .zone) ∨
        (kind = 3 ∧ e.role ≠ .supervisor ∧ e.role ≠ .panel) ∨ (kind = 4 ∧ e.role = .cutoff)
      (¬sends → exec (.receiveFrame (.octets os)) s = .next forwarded) ∧
      (sends → size ≠ (if kind = 3 then 4 else 3) → exec (.receiveFrame (.octets os)) s =
        .next { forwarded with ri := { forwarded.ri with malformed := min (2 ^ 32 - 1) (forwarded.ri.malformed + 1) } }))) ∧
  (∀ (os : List Byte) (s : State), s.passive = false → passesCheck os = true → os.getD 1 0 ≠ ownOctet s →
    os.getD 0 0 ≠ ownOctet s → (os.getD 2 0 = 0 ∨ 4 < (os.getD 2 0).toNat) →
    exec (.receiveFrame (.octets os)) s = .next (forward (.octets os) s)) ∧
  (∀ (s : State) (address : Nat),
    (stationAt s address = none ↔ ∀ e, some e ∈ s.ri.stations → e.address ≠ address) ∧
    (∀ i e, stationAt s address = some (i, e) → s.ri.stations[i]? = some (some e) ∧ e.address = address ∧
      ∀ j < i, ∀ x, s.ri.stations[j]? = some (some x) → x.address ≠ address)) ∧
  (∀ (h : FrameHeader) (a : Word16) (d : Byte) (i : Nat) (e : Station) (s : State), Observes h i e s →
    let forwarded := fun (kind : Byte) (payload : List Byte) =>
      forward (.octets (frameOctets h.target h.origin kind h.sequence payload)) s
    (e.role ≠ .encoder → exec (.tally h a d) s = .next (forwarded 1 (octetsOf a ++ [d]))) ∧
    (e.role ≠ .zone → exec (.reading h d a) s = .next (forwarded 2 (d :: octetsOf a))) ∧
    (e.role ≠ .cutoff → exec (.cut h a d) s = .next (forwarded 4 (octetsOf a ++ [d]))))

/-- The free transmit pin takes the forwarding buffer first, then the directive queue, then the answers, then the reports, each
oldest first; what the part originates takes the originated-frame sequence as it stands, which then advances (log entry 33). The
frame held at the transmit pin, by its fields, is the model's (log entries 9 and 24), and so is the line count in the header of
a held report that then enters the queue (log entry 57). Reports go to the SUPERVISOR entry's address, or to 63 where the table
holds none. -/
def Obligations.TransmitTakesInOrder : Prop :=
  (∀ s : State, s.passive = false →
    (∀ f t, s.ri.forwarding = f :: t →
      exec .transmit s = .next { s with ri := { s.ri with forwarding := t, txPin := some f } }) ∧
    (∀ d t, s.ri.forwarding = [] → s.ri.directives = d :: t →
      exec .transmit s = .next { s with ri := { s.ri with
        directives := t, originSeq := s.ri.originSeq + 1,
        txPin := some (.directive d.target s.ri.ownAddress s.ri.originSeq d.directive) } }) ∧
    (∀ a t, s.ri.forwarding = [] → s.ri.directives = [] → s.ri.answers = a :: t →
      exec .transmit s = .next { s with ri := { s.ri with
        answers := t, originSeq := s.ri.originSeq + 1,
        txPin := some (.answer a.target s.ri.ownAddress s.ri.originSeq a) } }) ∧
    (∀ r t, s.ri.forwarding = [] → s.ri.directives = [] → s.ri.answers = [] → s.ri.reports = r :: t →
      exec .transmit s = .next (moveHeld s.ri.held.length { s with ri := { s.ri with
        reports := t, originSeq := s.ri.originSeq + 1,
        txPin := some (.report (reportTarget s) s.ri.ownAddress s.ri.originSeq r) } })) ∧
    (s.ri.forwarding = [] → s.ri.directives = [] → s.ri.answers = [] → s.ri.reports = [] → exec .transmit s = .next s)) ∧
  (∀ s : State,
    (∀ a e b, s.ri.stations = a ++ some e :: b → e.role = .supervisor → (∀ x, some x ∈ a → x.role ≠ .supervisor) →
      reportTarget s = e.address) ∧
    ((∀ x, some x ∈ s.ri.stations → x.role ≠ .supervisor) → reportTarget s = 63))

/-- A report enters a queue with room at the tail, or is lost and counted; either way it takes the report number as it stands,
which then advances (log entry 33). -/
def Obligations.ReportTakesANumber : Prop :=
  ∀ (x : ReportBody) (s : State),
    (s.ri.reports.length < 16 → report x s = { s with ri := { s.ri with
      reports := s.ri.reports ++ [⟨s.ri.reportNumber, s.pt.lineCount, x⟩], reportNumber := s.ri.reportNumber + 1 } }) ∧
    (16 ≤ s.ri.reports.length → report x s = { s with ri := { s.ri with
      reportsLost := min (2 ^ 32 - 1) (s.ri.reportsLost + 1), reportNumber := s.ri.reportNumber + 1 } })

/-! ## Line position, speed and the drive request set -/

/-- A TALLY frame from the ENCODER station is forwarded and handed to the Position Tracker with its sequence, its delta and its
STOPPED flag. In CONFIGURING it sets the last sequence and nothing else; in RUNNING a duplicate changes nothing. -/
def Obligations.TallyReachesTheTracker : Prop :=
  (∀ (h : FrameHeader) (delta : Word16) (flags : Byte) (i : Nat) (e : Station) (s : State),
     Observes h i e s → e.role = .encoder →
     exec (.tally h delta flags) s = .next (takeTally h.sequence delta.toNat (flags.getLsbD 0)
       (forward (.octets (frameOctets h.target h.origin 1 h.sequence (octetsOf delta ++ [flags]))) s))) ∧
  (∀ (seq : Byte) (delta : Nat) (stopped : Bool) (s : State),
     (s.me.running = false → takeTally seq delta stopped s = { s with pt := { s.pt with lastSeq := some seq } }) ∧
     (s.me.running = true → s.pt.lastSeq = some seq → takeTally seq delta stopped s = s))

/-- A tally taken in RUNNING, after a gap or not, moves the line count by its delta up to 2^48 − 1, sets speed, stopped state
and last sequence, and adds the lost tallies of a gap to their count; the geometry and the part state stay. A gap is first
handled: the uncertainty of every mark rises and every roll is charged by k × max tally delta, the lost tallies are counted and
the tracking warning is examined, whose state is true where the largest uncertainty exceeds the warn limit, with a report at a
rising alone. The taking hands a change of the stopped state to the trips (R10), reports an excessive delta (R12), and hands the
new count to SM, ZR, SC, OS and ME in this order, where OS sets the current order's released length (R51). Which moment's count
and speed the gap's charges see, and where the OVER_DELTA report falls, is the model's choice (log entries 28 and 27), as is
when the evaluations inside the event are made (log entry 6). -/
def Obligations.TakenTallyMovesTheLine : Prop :=
  (∀ (seq : Byte) (delta : Nat) (stopped : Bool) (s : State), s.me.running = true → s.pt.lastSeq ≠ some seq →
    let t := takeTally seq delta stopped s
    let lost := match s.pt.lastSeq with
      | none => 0
      | some last => (seq - last).toNat - 1
    t.pt.lineCount = min (2 ^ 48 - 1) (s.pt.lineCount + delta) ∧
    t.pt.speed = delta * 60 / s.pt.geometry.tallyInterval ∧ t.pt.stopped = stopped ∧ t.pt.lastSeq = some seq ∧
    (s.pt.lostTallies ≤ 2 ^ 32 - 1 → t.pt.lostTallies = min (2 ^ 32 - 1) (s.pt.lostTallies + lost)) ∧
    t.pt.geometry = s.pt.geometry ∧ t.me.running = true) ∧
  (∀ (seq : Byte) (delta : Nat) (stopped : Bool) (s : State),
    let moved := { s with pt := { s.pt with
      lineCount := min (2 ^ 48 - 1) (s.pt.lineCount + delta), speed := delta * 60 / s.pt.geometry.tallyInterval,
      stopped := stopped } }
    let told := if s.pt.stopped = stopped then moved else if stopped = true then lineStopped moved else lineStarted moved
    let kept := { told with pt := { told.pt with lastSeq := some seq } }
    let counted := if kept.pt.geometry.maxDelta < delta then report (.tracking (.overDelta seq delta kept.pt.lineCount)) kept
      else kept
    let orders := evaluate (ordersNewCount
      (splicesNewCount evaluate delta (zonesNewCount (mapNewCount takeRelease evaluate counted))))
    let reached := fun (t : Trigger) => match t with
      | .lineAt c => decide (c ≤ orders.pt.lineCount)
      | _ => false
    takeExpectedTally seq delta stopped s = handEvent reached orders) ∧
  (∀ (seq last : Byte) (delta : Nat) (stopped : Bool) (s : State), s.me.running = true →
    (s.pt.lastSeq = none → takeTally seq delta stopped s = takeExpectedTally seq delta stopped s) ∧
    (s.pt.lastSeq = some last →
      (seq = last + 1 → takeTally seq delta stopped s = takeExpectedTally seq delta stopped s) ∧
      (∀ k, 1 ≤ k → (seq - last).toNat = k + 1 →
        let travel := k * s.pt.geometry.maxDelta
        let charged := chargeGap evaluate travel (raiseUncertainty travel s)
        takeTally seq delta stopped s = takeExpectedTally seq delta stopped (examineTracking
          { charged with pt := { charged.pt with lostTallies := min (2 ^ 32 - 1) (charged.pt.lostTallies + k) } })))) ∧
  (∀ s : State, (∀ m ∈ s.sm.marks, m.uncertainty ≤ largestUncertainty s) ∧ (s.sm.marks = [] → largestUncertainty s = 0) ∧
    (s.sm.marks ≠ [] → ∃ a m b, s.sm.marks = a ++ m :: b ∧ m.uncertainty = largestUncertainty s ∧ mostUncertain s = m.id ∧
      ∀ x ∈ a, x.uncertainty < largestUncertainty s)) ∧
  (∀ s : State,
    let told := report (.tracking (.uncertain (largestUncertainty s) (mostUncertain s) s.pt.geometry.warnLimit)) s
    examineTracking s =
      if largestUncertainty s ≤ s.pt.geometry.warnLimit then { s with pt := { s.pt with trackingWarned := false } }
      else if s.pt.trackingWarned = true then s
      else { told with pt := { told.pt with trackingWarned := true } }) ∧
  (∀ s : State,
    let current := s.os.orders.find? fun o => o.feed == .feeding || o.feed == .committed
    (current = none → ordersNewCount s = s) ∧
    (∀ o w, current = some o → (∀ x ∈ s.os.orders, x.id = o.id → x.startW = some w) →
      let reached : WebPos := match o.endW with
        | some e => min s.pt.lineCount e
        | none => s.pt.lineCount
      ordersNewCount s = { s with os := { s.os with orders := s.os.orders.map fun x =>
        if x.id = o.id then { x with released := (reached - w).toNat } else x } }))

/-- The Position Tracker's uncertainty claim adds the amount to the uncertainty of every mark, saturating at 65,535. The marks
keep their order and all else, every threshold stays where it was, each extent is at least as wide as before on both sides, no
mark passes the retirement test that did not pass it before, and no report is made. -/
def Obligations.UncertaintyClaimWidensEveryMark : Prop :=
  ∀ (amount : Nat) (s : State),
    let t := raiseUncertainty amount s
    let raised := fun m : Mark => { m with uncertainty := min 65535 (m.uncertainty + amount) }
    t = { s with sm := { s.sm with marks := s.sm.marks.map raised } } ∧
    (∀ w taken, reachedThresholds t w taken = reachedThresholds s w taken) ∧
    (∀ m, m.uncertainty ≤ 65535 →
      extentLow t (raised m) ≤ extentLow s m ∧ extentHigh s m ≤ extentHigh t (raised m) ∧
      (hasPassed t (raised m) = true → hasPassed s m = true)) ∧
    t.ri = s.ri

/-- The slow holder set: a stand not in it is added with its limit, another limit replaces a stand's, the same limit and a
removal of a stand not in it change nothing, a stand in it is removed; each change is followed by the decision of R16, and the
held limit is the smallest limit while the set is not empty. -/
def Obligations.SlowHolderSetChanges : Prop :=
  (∀ (k limit : Nat) (s : State), s.pt.slow.find? (fun h => h.stand == k) = none →
    placeSlow k limit s = driveChange { s with pt := { s.pt with slow := s.pt.slow ++ [⟨k, limit⟩] } }) ∧
  (∀ (k limit : Nat) (x : SlowHolder) (s : State), s.pt.slow.find? (fun h => h.stand == k) = some x → x.limit ≠ limit →
    placeSlow k limit s = driveChange { s with pt := { s.pt with
      slow := s.pt.slow.map fun y => if y.stand = k then ⟨k, limit⟩ else y } }) ∧
  (∀ (k limit : Nat) (s : State), s.pt.slow.find? (fun h => h.stand == k) = some ⟨k, limit⟩ → placeSlow k limit s = s) ∧
  (∀ (k : Nat) (s : State), (∃ x ∈ s.pt.slow, x.stand = k) →
    removeSlow k s = driveChange { s with pt := { s.pt with slow := s.pt.slow.filter fun x => x.stand != k } }) ∧
  (∀ (k : Nat) (s : State), (∀ x ∈ s.pt.slow, x.stand ≠ k) → removeSlow k s = s) ∧
  (∀ l : List SlowHolder, heldLimit l = none ↔ l = []) ∧
  (∀ (l : List SlowHolder) (m : Nat), heldLimit l = some m ↔ (∃ x ∈ l, x.limit = m) ∧ ∀ x ∈ l, m ≤ x.limit)

/-- A claim at the stop holder set: a cause present changes nothing; a new one is added, LINE_REQUEST STOP is placed in RUNNING
and the LINE report is made. In a queue that keeps R179's laws STOP always finds its entry: it stands in the place of a waiting
LINE_REQUEST, or at the tail. Placing any directive: a SETPOINT of a zone replaces that zone's waiting one and a LINE_REQUEST a
waiting one, in its place; otherwise STOP takes the tail of a queue with a free entry, and any other directive the tail of one
with two; else it is discarded, which is counted and claims the stop holder and the hold DIRECTIVE_OVERFLOW. After a change of
the slow set or a removal from the stop set, R16's table decides: nothing while a stop cause is held, SLOW with the held limit,
or RESUME; in CONFIGURING nothing is placed; the LINE report names what was placed, ahead of what a discard brings (log entry
7). START places STOP, SLOW or RESUME for the sets as they stand. A directive goes to the address of the entry in its role;
address 0 for a role in no entry is the model's (log entry 22). -/
def Obligations.StopClaimPlacesStop : Prop :=
  (∀ (c : StopCause) (s : State),
     (c ∈ s.pt.stop → claimStop c s = s) ∧
     (c ∉ s.pt.stop → s.me.running = true → DirectiveLaws s.ri.directives →
       ∃ q, enqueue ⟨roleAddress s .drive, .lineRequest .stop⟩ s.ri.directives = some q ∧
         claimStop c s = report (.line (s.pt.stop ++ [c]) s.pt.slow (heldLimit s.pt.slow) (some .stop))
           { s with pt := { s.pt with stop := s.pt.stop ++ [c] }, ri := { s.ri with directives := q } }) ∧
     (c ∉ s.pt.stop → s.me.running = false →
       claimStop c s = report (.line (s.pt.stop ++ [c]) s.pt.slow (heldLimit s.pt.slow) none)
         { s with pt := { s.pt with stop := s.pt.stop ++ [c] } })) ∧
  (∀ (q : List PlacedDirective) (target : Nat), DirectiveLaws q →
     let stop : PlacedDirective := ⟨target, .lineRequest .stop⟩
     ∃ r, enqueue stop q = some r ∧ DirectiveLaws r ∧
       r = if q.any isLineRequest = true then q.map (fun x => if isLineRequest x = true then stop else x) else q ++ [stop]) ∧
  (∀ (d : PlacedDirective) (q : List PlacedDirective),
     let same := fun (x : PlacedDirective) => match d.directive, x.directive with
       | .setpoint z _ _, .setpoint y _ _ => z == y
       | .lineRequest _, .lineRequest _ => true
       | _, _ => false
     enqueue d q =
       if q.any same = true then some (q.map fun x => if same x = true then d else x)
       else if (d.directive = .lineRequest .stop ∧ q.length < 48) ∨ q.length + 2 ≤ 48 then some (q ++ [d])
       else none) ∧
  (∀ s : State, directiveOverflow s =
     let t := claimStop .directiveOverflow
       { s with ri := { s.ri with discardedDirectives := min (2 ^ 32 - 1) (s.ri.discardedDirectives + 1) } }
     { t with os := { t.os with mode := .hold, holdCause := .directiveOverflow } }) ∧
  (∀ (target : Nat) (d : Directive) (s : State), placeDirective target d s =
     match enqueue ⟨target, d⟩ s.ri.directives with
     | some q => { s with ri := { s.ri with directives := q } }
     | none => directiveOverflow s) ∧
  (∀ s : State,
     let wanted : LineRequest := match heldLimit s.pt.slow with
       | some l => .slow l
       | none => .resume
     let told := fun (placed : Option LineRequest) (t : State) =>
       report (.line s.pt.stop s.pt.slow (heldLimit s.pt.slow) placed) t
     (driveChange s =
       if s.me.running = false ∨ s.pt.stop ≠ [] then told none s
       else match enqueue ⟨roleAddress s .drive, .lineRequest wanted⟩ s.ri.directives with
         | some q => told (some wanted) { s with ri := { s.ri with directives := q } }
         | none => directiveOverflow (told (some wanted) s)) ∧
     startRequest s = if s.pt.stop = [] then wanted else .stop) ∧
  (∀ (r : Role) (s : State),
     (∀ a e b, s.ri.stations = a ++ some e :: b → e.role = r → (∀ x, some x ∈ a → x.role ≠ r) →
       roleAddress s r = e.address) ∧
     ((∀ x, some x ∈ s.ri.stations → x.role ≠ r) → roleAddress s r = 0)) ∧
  (∀ (r : Role) (d : Directive) (s : State), direct r d s = placeDirective (roleAddress s r) d s)

/-- CLEAR_STOP: a cause outside Table 1-3 is FIELD_RANGE (log entry 31), one not held NOT_FOUND, TRIP_CUTOUT under a latched
CUTOUT flag STILL_ACTIVE; any other held cause is removed, the decision of R16 follows, and the request is ACCEPTED. -/
def Obligations.ClearStopRemovesACause : Prop :=
  ∀ (h : ReqHeader) (src : MgmtSource) (c : StopCause) (s : State), Reaches h src s →
    (∀ n, exec (.clearStop h (.fields (.beyond n))) s =
      .next (answered h src 17 (.refused .parameter .fieldRange .none) s)) ∧
    (c ∉ s.pt.stop →
      exec (.clearStop h (.fields (.named c))) s = .next (answered h src 17 (.refused .notFound .none .none) s)) ∧
    (c ∈ s.pt.stop → c = .tripCutout → (∃ t ∈ s.ts.zones, t.latched.cutout = true) →
      exec (.clearStop h (.fields (.named c))) s = .next (answered h src 17 (.refused .stillActive .none .none) s)) ∧
    (c ∈ s.pt.stop → (c = .tripCutout → ∀ t ∈ s.ts.zones, t.latched.cutout = false) →
      exec (.clearStop h (.fields (.named c))) s = .next (answered h src 17 (.accepted .none)
        (driveChange { s with pt := { s.pt with stop := s.pt.stop.filter fun x => x != c } })))

/-! ## The segment map -/

/-- The reject extent of a mark, and when it overlaps the board from a to b; a boundary with zero spans and zero uncertainty
overlaps exactly when a < w < b. The entries of Table 2-3 in its order: the seven window causes 0 to 6, JOINT 7, BOUNDARY 8. -/
def Obligations.RejectExtentAndOverlap : Prop :=
  (∀ (s : State) (m : Mark) (a b : WebPos), a < b →
    let sp := s.sm.spans.getD (spanIndex m.kind) ⟨0, 0⟩
    extentLow s m = m.w - sp.lead - m.uncertainty ∧
    extentHigh s m = farEdge s m + sp.trail + m.uncertainty ∧
    (overlaps s m a b = true ↔ extentLow s m < b ∧ a < extentHigh s m) ∧
    (∀ c n taken, m.kind = .boundary c n taken → sp = ⟨0, 0⟩ → m.uncertainty = 0 →
      (overlaps s m a b = true ↔ a < m.w ∧ m.w < b))) ∧
  (∀ (src : Source) (x : Extent),
    [WindowCause.glueStarve, .heatDeviation, .operator, .gradeMismatch, .lateSet, .knifeFault, .transition].map
      (fun cause => spanIndex (.window cause src x)) = List.range 7) ∧
  (∀ k, spanIndex (.joint k) = 7) ∧ (∀ c n taken, spanIndex (.boundary c n taken) = 8) ∧
  (∀ (s : State) (i : Nat), spanAt s i = s.sm.spans.getD i ⟨0, 0⟩)

/-- Admission by tier: a defect window with fewer than 108 marks, a process window and a boundary with fewer than 122, a joint
at any number. The mark id given to an admitted mark is held by no mark of the map, and is the counter's value where that is
free; every value from the counter up to it is held. An admitted mark stands after every mark whose w is at most its own and,
in a map in order, before every greater one. A claim in CONFIGURING is refused without a report; a defect window with a
candidate is merged into the one with the greatest far edge, among equals the one inserted last (the order of insertion is the
model's field, log entry 25), which an open claim reopens and a closed one extends, cut off at the largest length with a
report; a claim refused at its tier is reported UNTRACKED for a window; an admission or a merge is handed to the Order
Sequencer, an addition to the compensation is followed at once by an evaluation (log entry 6), and an admitted mark is tested
for retirement. -/
def Obligations.AdmissionTiersAndMarkIds : Prop :=
  (∀ s : State,
     (∀ cause src ext, isDefect cause = true →
       (refusedAtTier s (.window cause src ext) = false ↔ s.sm.marks.length < 108)) ∧
     (∀ cause src ext, isDefect cause = false →
       (refusedAtTier s (.window cause src ext) = false ↔ s.sm.marks.length < 122)) ∧
     (∀ c n taken, refusedAtTier s (.boundary c n taken) = false ↔ s.sm.marks.length < 122) ∧
     (∀ k, refusedAtTier s (.joint k) = false)) ∧
  (∀ cause, isDefect cause = true ↔ cause = .glueStarve ∨ cause = .heatDeviation ∨ cause = .operator) ∧
  (∀ (c : Claim) (unc : Nat) (s : State), s.sm.marks.length < 65536 →
     (∀ m ∈ s.sm.marks, m.id ≠ (admitMark c unc s).2.id) ∧
     ((∀ m ∈ s.sm.marks, m.id ≠ s.sm.nextId) → (admitMark c unc s).2.id = s.sm.nextId) ∧
     (∀ d < ((admitMark c unc s).2.id - s.sm.nextId).toNat, ∃ m ∈ s.sm.marks, m.id = s.sm.nextId + BitVec.ofNat 16 d) ∧
     (admitMark c unc s).1.sm.nextId = (admitMark c unc s).2.id + 1) ∧
  (∀ (c : Claim) (unc : Nat) (s : State), ∃ a b, s.sm.marks = a ++ b ∧
     let m : Mark := { id := (admitMark c unc s).2.id, w := c.w, kind := c.kind, uncertainty := unc }
     admitMark c unc s = ({ s with sm := { s.sm with
       marks := a ++ m :: b, insertion := s.sm.insertion ++ [m.id], nextId := m.id + 1 } }, m) ∧
     (∀ x ∈ a, x.w ≤ c.w) ∧ (s.sm.marks.Pairwise (fun x y => x.w ≤ y.w) → ∀ x ∈ b, c.w < x.w)) ∧
  (∀ (cause : WindowCause) (src : Source) (w : WebPos) (m : Mark) (s : State),
     isCandidate s cause src w m = true ↔
       ∃ l, m.kind = .window cause src (.closed l) ∧ m.w ≤ w ∧ w ≤ m.w + l + s.pt.geometry.mergeGap ∧
         ∀ x ∈ s.sm.marks, x.id ≠ m.id → ¬(m.w + l < x.w ∧ x.w ≤ w)) ∧
  (∀ (cause : WindowCause) (src : Source) (w : WebPos) (s : State),
     (mergeCandidate s cause src w = none ↔ ∀ m ∈ s.sm.marks, isCandidate s cause src w m = false) ∧
     (∀ e, mergeCandidate s cause src w = some e → e ∈ s.sm.marks ∧ isCandidate s cause src w e = true ∧
       ∀ m ∈ s.sm.marks, isCandidate s cause src w m = true →
         farEdge s m < farEdge s e ∨
           (farEdge s m = farEdge s e ∧ s.sm.insertion.idxOf m.id ≤ s.sm.insertion.idxOf e.id))) ∧
  (∀ (e : Mark) (cause : WindowCause) (src : Source) (w : WebPos) (unc : Nat) (s : State),
     let changed := fun (x : Extent) (m : Mark) =>
       { m with kind := .window cause src x, uncertainty := max e.uncertainty unc }
     mergeInto e cause src .openEnded w unc s =
       takeNotice (changed .openEnded e) (modMark e.id (changed .openEnded) s) ∧
     (∀ old l : Nat, e.kind = .window cause src (.closed old) →
       let len : Int := max old (w + l - e.w)
       let kept : Extent := .closed (min len.toNat 16777215)
       let t := modMark e.id (changed kept) s
       mergeInto e cause src (.closed l) w unc s = takeNotice (changed kept e)
         (if 16777215 < len.toNat then report (.map (.truncated e.id cause src (e.w + 16777216) (e.w + len))) t else t))) ∧
  (∀ (c : Claim) (s : State),
     let unc := match c.uncertainty with
       | .exact n => min 65535 n
       | .like id => ((markOf s id).map (·.uncertainty)).getD 0
     (s.me.running = false → insertCore c s = (s, .refused, false)) ∧
     (∀ cause src ext e, s.me.running = true → c.kind = .window cause src ext → isDefect cause = true →
       mergeCandidate s cause src c.w = some e →
       insertCore c s = ((mergeInto e cause src ext c.w unc s).1, .merged e.id, (mergeInto e cause src ext c.w unc s).2)) ∧
     (s.me.running = true →
       (∀ cause src ext, c.kind = .window cause src ext → isDefect cause = true → mergeCandidate s cause src c.w = none) →
       (refusedAtTier s c.kind = true → insertCore c s =
         (match c.kind with
           | .window cause src ext =>
             report (.map (.untracked cause src c.w ext s.sm.marks.length (if isDefect cause = true then 108 else 122))) s
           | _ => s, .refused, false)) ∧
       (refusedAtTier s c.kind = false →
         let a := admitMark c unc s
         insertCore c s = ((takeNotice a.2 a.1).1, .admitted a.2.id, (takeNotice a.2 a.1).2)))) ∧
  (∀ (ev : State → State) (c : Claim) (s : State),
     let r := insertCore c s
     let t := if r.2.2 = true then ev r.1 else r.1
     insertMark ev c s = (match r.2.1 with
       | .admitted id => testRetirement ev id t
       | _ => t, r.2.1))

/-- A shortening claim of the Zone Regulator: the length of its TRANSITION window becomes the lesser of its length and the new
one; every other mark and everything else stay. A claim on no such window changes nothing (R31, R34). Which window is the zone's
own is told by its cause and source, as the model reads R34 (DESIGN CHOICE, log entry 44). -/
def Obligations.ShorteningNeverLengthens : Prop :=
  ∀ (id : MarkId) (zone length : Nat) (s : State),
    (∀ m l, markOf s id = some m → m.kind = .window .transition (.zone zone) (.closed l) →
      shortenWindow id zone length s = { s with sm := { s.sm with marks := s.sm.marks.map fun x =>
        if x.id = id then { x with kind := .window .transition (.zone zone) (.closed (min l length)) } else x } }) ∧
    ((∀ m l, markOf s id = some m → m.kind ≠ .window .transition (.zone zone) (.closed l)) →
      shortenWindow id zone length s = s)

/-- Far edges, with the offset of the window point from the geometry, the zone or the stand, the close claim, retirement and
removal. A mark passes the retirement test when it is no open window and the line count less the gate's offset is beyond its
reject extent; it then overlaps no board at or beyond the gate's board at that state. A close claim on an open window of its
creator gives it the length up to the stated far edge or the window point, cut off at the largest length with a report, and
tests it for retirement; on a closed one it changes nothing; on any other mark it is absent. A retired mark leaves the map;
then a joint frees its stand, a map below 122 marks is noticed, the tracking warning is examined, the mark's credit entry goes,
and a boundary's plan list entry is a missed trim. A tally tests every mark in map order. A removed boundary answers its
dispatched thresholds. A creator is told by cause and source (log entry 44), edges beyond the 48-bit range are exact (log entry
46), and the evaluation is made at its notice (log entry 6). -/
def Obligations.RetirementTestAndNotices : Prop :=
  (∀ (s : State) (m : Mark) (a b : WebPos), hasPassed s m = true → lineCount s - s.pt.geometry.gateOffset ≤ a →
    overlaps s m a b = false) ∧
  (∀ (s : State) (id : MarkId) (w : WebPos) (unc : Nat),
    (∀ c n taken, farEdge s ⟨id, w, .boundary c n taken, unc⟩ = w) ∧ (∀ k, farEdge s ⟨id, w, .joint k, unc⟩ = w) ∧
    (∀ cause src l, farEdge s ⟨id, w, .window cause src (.closed l), unc⟩ = w + l) ∧
    (∀ cause n, farEdge s ⟨id, w, .window cause (.zone n) .openEnded, unc⟩ = max w (lineCount s - zoneOffset s n)) ∧
    (∀ cause k, farEdge s ⟨id, w, .window cause (.knife k) .openEnded, unc⟩ = max w (lineCount s - knifeOffset s k)) ∧
    (∀ cause k, farEdge s ⟨id, w, .window cause (.stand k) .openEnded, unc⟩ = max w (lineCount s - standOffset s k))) ∧
  (∀ s : State, knifeOffset s .a = s.pt.geometry.knifeAOffset ∧ knifeOffset s .b = s.pt.geometry.knifeBOffset ∧
    (∀ n z, zoneOf s n = some z → zoneOffset s n = z.offset) ∧ (∀ k r, standOf s k = some r → standOffset s k = r.effOffset)) ∧
  (∀ (s : State) (id : MarkId), markOf s id = s.sm.marks.find? fun m => m.id == id) ∧
  (∀ (s : State) (id : MarkId) (f : Mark → Mark), modMark id f s =
    { s with sm := { s.sm with marks := s.sm.marks.map fun m => if m.id = id then f m else m } }) ∧
  (∀ (s : State) (m : Mark), hasPassed s m = true ↔
    (∀ c src, m.kind ≠ .window c src .openEnded) ∧ extentHigh s m < lineCount s - s.pt.geometry.gateOffset) ∧
  (∀ (ev : State → State) (id : MarkId) (s : State), testRetirement ev id s =
    match s.sm.marks.find? (fun m => m.id == id) with
    | none => s
    | some m => if hasPassed s m = true then retire ev m s else s) ∧
  (∀ (ev : State → State) (s : State),
    retireAll ev s = (s.sm.marks.map (·.id)).foldl (fun t id => testRetirement ev id t) s) ∧
  (∀ (ev : State → State) (s : State),
    let out := fun (id : MarkId) (t : State) => { t with sm := { t.sm with
      marks := t.sm.marks.filter fun x => x.id != id, insertion := t.sm.insertion.filter fun i => i != id } }
    let room := fun (t : State) => examineTracking (if t.sm.marks.length < 122 then ev t else t)
    let forget := fun (id : MarkId) (t : State) =>
      { t with os := { t.os with credits := t.os.credits.filter fun c => c.mark != id } }
    (∀ m c src x, m.kind = .window c src x → retire ev m s = forget m.id (room (out m.id s))) ∧
    (∀ m k, m.kind = .joint k → retire ev m s =
      forget m.id (room (examinePending ev k (modStand k (fun r => { r with jointRef := none }) (out m.id s))))) ∧
    (∀ m c n taken, m.kind = .boundary c n taken →
      retire ev m s = planRetired m.id (forget m.id (room (out m.id s)))) ∧
    (∀ id m c n taken, markOf s id = some m → m.kind = .boundary c n taken →
      removeBoundary ev id s = (room (out id s), some taken)) ∧
    (∀ id, (∀ m c n taken, markOf s id = some m → m.kind ≠ .boundary c n taken) → removeBoundary ev id s = (s, none))) ∧
  (∀ (id : MarkId) (s : State), planRetired id s =
    if ∃ e ∈ s.cs.plan, e.mark = id then { s with cs := { s.cs with
      plan := s.cs.plan.filter fun e => e.mark != id,
      counters := { s.cs.counters with missedTrims := min (2 ^ 32 - 1) (s.cs.counters.missedTrims + 1) } } }
    else s) ∧
  (∀ (ev : State → State) (id : MarkId) (mine : WindowCause → Source → Bool) (far : Option WebPos) (s : State),
    ((∀ m c src x, markOf s id = some m → m.kind = .window c src x → mine c src = false) →
      closeWindow ev id mine far s = (s, none)) ∧
    (∀ m c src l, markOf s id = some m → m.kind = .window c src (.closed l) → mine c src = true →
      closeWindow ev id mine far s = (s, some l)) ∧
    (∀ m c src, markOf s id = some m → m.kind = .window c src .openEnded → mine c src = true →
      let edge := far.getD (farEdge s m)
      let len := (edge - m.w).toNat
      let closed := modMark id (fun x => { x with kind := .window c src (.closed (min len 16777215)) }) s
      closeWindow ev id mine far s = (testRetirement ev id
        (if 16777215 < len then report (.map (.truncated m.id c src (m.w + 16777216) edge)) closed else closed),
        some (min len 16777215))))

/-- The thresholds of a boundary at w. A threshold is reached when it is not yet taken and the line count is at or past its
value in Table 2-4; the reached ones are taken in ascending order of value, those of one value in the order of the table's rows,
zones by number. A taken one is recorded and dispatched to its block, while the mark is in the map. A new count takes them mark
by mark in map order and then makes the retirements; an inserted boundary takes those already passed, flagged as at insertion,
and is then tested for retirement. No threshold of a boundary inserted more than D_pre ahead of the line count is already
reached, while every lead keeps the bounds that START checks. -/
def Obligations.CommitBoundaryHasNoPassedThreshold : Prop :=
  (∀ (s : State) (w : WebPos), geometryFault s = none →
    lineCount s + s.pt.geometry.dPre < w → reachedThresholds s w [] = []) ∧
  (∀ (s : State) (w : WebPos) (taken : List Threshold),
    let g := s.pt.geometry
    let value := fun (t : Threshold) => match t with
      | .release => w
      | .zone n => w + zoneOffset s n - (((zoneOf s n).map (·.rampLead)).getD 0 : Nat)
      | .knifeApproach .a => w + g.knifeAOffset - g.knifeLead
      | .knifeArrival .a => w + g.knifeAOffset
      | .knifeApproach .b => w + g.knifeBOffset - g.knifeLead
      | .knifeArrival .b => w + g.knifeBOffset
      | .cutoff => w + g.cutoffOffset - g.cutoffLead
    let row := fun (t : Threshold) => match t with
      | .release => (0, 0)
      | .zone n => (1, n)
      | .knifeApproach .a => (2, 0)
      | .knifeArrival .a => (3, 0)
      | .knifeApproach .b => (4, 0)
      | .knifeArrival .b => (5, 0)
      | .cutoff => (6, 0)
    (∀ t, t ∈ reachedThresholds s w taken ↔
      t ∉ taken ∧ value t ≤ lineCount s ∧ ∀ n, t = .zone n → n ∈ placedZones s) ∧
    (reachedThresholds s w taken).Pairwise fun x y => value x < value y ∨
      (value x = value y ∧ ((row x).1 < (row y).1 ∨ ((row x).1 = (row y).1 ∧ (row x).2 < (row y).2)))) ∧
  (∀ (s : State) (n : Nat), n ∈ placedZones s ↔ ∃ z, zoneOf s n = some z ∧ z.placed = true) ∧
  (∀ (release : BoundaryRef → Option OrderId → OrderId → State → State) (ev : State → State) (flag : Bool) (id : MarkId)
     (t : Threshold) (s : State),
    (markOf s id = none → takeThreshold release ev flag id t s = s) ∧
    (∀ m c n taken, markOf s id = some m → m.kind = .boundary c n taken →
      (t ∈ taken → takeThreshold release ev flag id t s = s) ∧
      (t ∉ taken →
        let u := { s with sm := { s.sm with marks := s.sm.marks.map fun x => if x.id == id then markTaken t x else x } }
        takeThreshold release ev flag id t s = match t with
          | .release => release ⟨id, m.w⟩ c n u
          | .zone k => zoneApproach ev k id n flag u
          | .knifeApproach k => knifeApproach ev k ⟨id, m.w⟩ c n u
          | .knifeArrival k => knifeArrival ev k ⟨id, m.w⟩ c n u
          | .cutoff => cutoffApproach ⟨id, m.w⟩ c n u) ∧
      takeMarkThresholds release ev flag id s =
        (reachedThresholds s m.w taken).foldl (fun u x => takeThreshold release ev flag id x u) s) ∧
    (∀ m c n taken, m.kind = .boundary c n taken → markTaken t m = { m with kind := .boundary c n (taken ++ [t]) }) ∧
    mapNewCount release ev s = retireAll ev
      ((s.sm.marks.map (·.id)).foldl (fun u i => takeMarkThresholds release ev false i u) s) ∧
    (∀ c n w,
      let r := insertCore { kind := .boundary c n [], w := w, uncertainty := .exact 0 } s
      insertBoundary release ev w c n s = match r.2.1 with
        | .admitted i => testRetirement ev i (takeMarkThresholds release ev true i r.1)
        | _ => r.1))

/-! ## Orders -/

/-- A count claim changes the order it names alone: one cut more, WAITING becomes CUTTING, the lane count goes to the good
sheets or to the sheets of the named reject cause, and the sheets of every other cause stay, so that the lane count times the
cuts stays the good and the reject sheets together. A good sheet keeps an order's good sheets within lane count × (ceil(target ÷
lane count) + overrun allowance), where they are whole cuts (Table 5-1; log entry 59). A close claim on a FED order decides the
outcome by the first row of Table 3-7, places the make-up order of MADE_UP at the queued head, reports, removes the order and
matches the trigger table; a make-up is followed by an evaluation, whose place after that match is the model's choice (log entry
6). On any other order it changes nothing. A make-up order takes the rest of the target, the next make-up index and the closed
order as parent, with its other fields as they were and its counts 0. -/
def Obligations.CountsCloseAndMakeUp : Prop :=
  (∀ (s : State) (id : OrderId) (f : Order → Order),
     orderOf s id = (s.os.orders.find? fun o => o.id == id) ∧
     currentOrder s = (s.os.orders.find? fun o => o.feed == .feeding || o.feed == .committed) ∧
     nextOrder s = (s.os.orders.find? fun o => o.feed == .next) ∧
     modOrder id f s = { s with os := { s.os with orders := s.os.orders.map fun o => if o.id = id then f o else o } } ∧
     removeOrder id s = { s with os := { s.os with orders := s.os.orders.filter fun o => o.id != id } }) ∧
  (∀ (c : Option RejectCause) (o : Order),
     let x := countedOrder c o
     let under := fun (r : RejectCause) (l : List RejectCount) => ((l.filter fun y => y.cause == r).map (·.sheets)).sum
     x = { o with cuts := x.cuts, cutState := x.cutState, good := x.good, rejects := x.rejects } ∧
     x.cuts = o.cuts + 1 ∧ x.cutState = (if o.cutState = .waiting then .cutting else o.cutState) ∧
     (c = none → x.good = o.good + o.layout.lanes.length ∧ x.rejects = o.rejects) ∧
     (∀ r, c = some r → x.good = o.good ∧ under r x.rejects = under r o.rejects + o.layout.lanes.length ∧
       ∀ q, q ≠ r → under q x.rejects = under q o.rejects) ∧
     (o.layout.lanes.length * o.cuts = o.good + (o.rejects.map (·.sheets)).sum →
       x.layout.lanes.length * x.cuts = x.good + (x.rejects.map (·.sheets)).sum)) ∧
  (∀ (id : OrderId) (c : Option RejectCause) (s : State), countClaim id c s =
     { s with os := { s.os with orders := s.os.orders.map fun o => if o.id = id then countedOrder c o else o } }) ∧
  (∀ (o : Order) (length : Nat) (a b : WebPos) (s t : State), classify (some o) length a b s = (t, none) →
     0 < o.layout.lanes.length → o.layout.lanes.length ∣ o.good →
     (countedOrder none o).good ≤
       o.layout.lanes.length * ((o.target + o.layout.lanes.length - 1) / o.layout.lanes.length + o.overrun)) ∧
  (∀ (o : Order) (s : State),
     let next : OrderId := ⟨o.id.number, o.id.makeUp + 1⟩
     outcomeOf s o =
       if o.cancelPending = true then .cancelled
       else if o.target ≤ o.good then .complete
       else if o.policy = .accept then .short
       else if 64 ≤ s.os.orders.length ∨ o.id.makeUp = 15 ∨ (∃ x ∈ s.os.orders, x.id = next) then .shortNoRoom
       else .madeUp (o.id.makeUp + 1)) ∧
  (∀ o : Order, makeUpOf o =
     { id := ⟨o.id.number, o.id.makeUp + 1⟩, parent := some o.id, target := o.target - o.good, overrun := o.overrun,
       layout := o.layout, cutLength := o.cutLength, grade := o.grade, stackHeight := o.stackHeight, policy := o.policy,
       holdAfter := false, feed := .queued, cutState := .waiting, startW := none, planned := none, endW := none,
       committedBefore := false, cancelPending := false, released := 0, cuts := 0, good := 0, rejects := [] }) ∧
  (∀ (id : OrderId) (s : State), closeOrder id s =
     match s.os.orders.find? (fun o => o.id == id) with
     | none => s
     | some found =>
       if found.feed = .fed then
         let o := { found with cutState := .closed }
         let waiting := s.os.orders.filter fun x => x.feed == .queued
         let others := s.os.orders.filter fun x => x.feed != .queued
         let placed := match outcomeOf s o with
           | .madeUp _ => others ++ [makeUpOf o] ++ waiting
           | _ => s.os.orders
         let told := report (.order o (outcomeOf s o)) { s with os := { s.os with orders := placed } }
         let left := { told with os := { told.os with orders := told.os.orders.filter fun x => x.id != id } }
         let matched := handEvent (fun t => t == .orderClosed id) left
         match outcomeOf s o with
         | .madeUp _ => evaluate matched
         | _ => matched
       else s)

/-- MODE HOLD, SINGLE and AUTO set the mode and the hold cause of R60 and an evaluation follows; SINGLE and AUTO are the
supervisor's, and from the panel NOT_PERMITTED; a mode outside the three is FIELD_RANGE. The evaluation with no current order
starts the first order; with a FEEDING current order that is due it commits: neither in HOLD nor with no QUEUED order, a
hold-after sets HOLD, a failed successor check is held and reported once for a reason, and where all pass the order is started
or committed, step by step, the planned splices in stand number order (log entry 64). A release makes the COMMITTED order FED
and the NEXT order FEEDING and is followed by an evaluation; any other release arrival changes nothing. An order that enters
FEEDING is planned with the contributions of the marks in the map, unless it was committed before; while it feeds, an insertion
or merge notice adds what its mark contributes beyond its credit. A grade's paper for a stand is the loaded record's, and none in
an empty record. The 0 lengths of a report with no current order are the
model's (log entry 42), as are a position out of range (log entry 4) and the moment of the evaluations inside the event (log
entry 6). -/
def Obligations.ModeRequestSetsTheMode : Prop :=
  (∀ (h : ReqHeader) (src : MgmtSource) (s : State), Reaches h src s →
    exec (.modeHold h (.fields ())) s = .next (answered h src 7 (.accepted .none)
      (evaluate { s with os := { s.os with mode := .hold, holdCause := .operator } })) ∧
    (src = .supervisor → exec (.modeSingle h (.fields ())) s = .next (answered h src 7 (.accepted .none)
      (evaluate { s with os := { s.os with mode := .single, holdCause := .none } }))) ∧
    (src = .supervisor → exec (.modeAuto h (.fields ())) s = .next (answered h src 7 (.accepted .none)
      (evaluate { s with os := { s.os with mode := .auto, holdCause := .none } }))) ∧
    (src = .panel → exec (.modeSingle h (.fields ())) s =
      .next (answered h src 7 (.refused .notPermitted .none .none) s)) ∧
    (src = .panel → exec (.modeAuto h (.fields ())) s = .next (answered h src 7 (.refused .notPermitted .none .none) s)) ∧
    (∀ code, exec (.receiveFrame (.request h (.body (.mode (.beyond code))))) s =
      .next (answered h src 7 (.refused .parameter .fieldRange .none) s))) ∧
  (∀ s : State, evaluate s = evaluateCommit (handFeedStarts (evaluateFirst s))) ∧
  (∀ s : State, handFeedStarts s = s.me.feedStarts.foldl (fun t id => handEvent (fun x => x == .feedStart id) t)
    { s with me := { s.me with feedStarts := [] } }) ∧
  (∀ s : State, evaluateFirst s =
    if s.me.running = false ∨ (∃ o ∈ s.os.orders, o.feed = .feeding ∨ o.feed = .committed) ∨ s.os.mode = .hold then s
    else match s.os.orders.find? (fun o => o.feed == .queued) with
      | none => s
      | some n => match successorFault s n with
        | some r => holdCommit r n s
        | none => startFirstOrder n s) ∧
  (∀ s : State, evaluateCommit s =
    if s.me.running = false then s
    else match s.os.orders.find? (fun o => o.feed == .feeding || o.feed == .committed) with
      | none => s
      | some c =>
        if c.feed ≠ .feeding ∨ c.released + s.pt.geometry.dPre < c.planned.getD 0 ∨ s.os.mode = .hold then s
        else match s.os.orders.find? (fun o => o.feed == .queued) with
          | none => s
          | some n =>
            if c.holdAfter = true then
              let t := modOrder c.id (fun o => { o with holdAfter := false }) s
              { t with os := { t.os with mode := .hold, holdCause := .holdAfter } }
            else match successorFault s n with
              | some r => holdCommit r n s
              | none => commit c n s) ∧
  (∀ (g k p : Nat) (s : State), gradePaper s g k = some p ↔
    ∃ r, s.zr.grades[g]? = some (some r) ∧ r.papers[k - 1]? = some (some p)) ∧
  (∀ (s : State) (n : Order) (k : Nat), k ∈ differingStands s n ↔ 1 ≤ k ∧ ∃ r, standOf s k = some r ∧
    ∀ roll, r.active = some roll → gradePaper s n.grade k ≠ some roll.paper) ∧
  (∀ (s : State) (n : Order), (differingStands s n).Pairwise (· < ·) ∧ successorFault s n =
    match orderCheck s n.fields with
    | some d => some (.invalid d)
    | none => match (differingStands s n).findSome? (fun k => (paperFault s n k).map (HeldReason.paper k)) with
      | some r => some r
      | none =>
        if knifeQuery s n.layout = .none then some (.knife s.kc.a.state s.kc.b.state)
        else if 122 ≤ s.sm.marks.length then some (.mapFull s.sm.marks.length) else none) ∧
  (∀ (s : State) (n : Order) (k : Nat) (r : Stand), standOf s k = some r → paperFault s n k =
    match r.standby with
    | .empty => some .noStandby
    | .prepared _ => some .notReady
    | .ready roll =>
      if gradePaper s n.grade k ≠ some roll.paper then some .paperCode
      else if roll.width < n.layout.boardWidth then some .rollNarrow
      else if r.splice.state ≠ .idle then some .spliceBusy else none) ∧
  (∀ (s : State) (n : Order) (r : HeldReason),
    let c := currentOrder s
    let released := (c.map (·.released)).getD 0
    let planned := (c.bind (·.planned)).getD 0
    holdCommit r n s =
      if s.os.heldReason = some r then s
      else report (.commitHeld { current := c.map (·.id), head := n.id, reason := r, released := released,
                                 planned := planned, beyond := released - planned })
        { s with os := { s.os with heldReason := some r } }) ∧
  (∀ (o : Order) (w : WebPos) (s : State),
    let credits := if o.committedBefore = true then [] else s.sm.marks.filterMap fun m =>
      if w < extentHigh s m then (noticeOverlap s w m).map fun part =>
        (⟨m.id, ((part + o.cutLength - 1) / o.cutLength + 1) * o.cutLength⟩ : Credit)
      else none
    let total := (credits.map (·.amount)).sum
    let cuts := (o.target + o.layout.lanes.length - 1) / o.layout.lanes.length
    let planned := if o.committedBefore = true then o.planned
      else some (cuts * o.cutLength + o.overrun * o.cutLength + total)
    let t := modOrder o.id (fun x => { x with feed := .feeding, startW := some w, planned := planned }) s
    enterFeeding o w s = { t with os := { t.os with compensation := total, credits := credits } }) ∧
  (∀ (s : State) (w : WebPos) (m : Mark), noticeOverlap s w m =
    match m.kind with
    | .boundary _ _ _ => none
    | .window _ _ .openEnded =>
      some ((spanAt s (spanIndex m.kind)).lead + (spanAt s (spanIndex m.kind)).trail + 2 * m.uncertainty)
    | _ => if extentHigh s m ≤ max (extentLow s m) w then none else some (extentHigh s m - max (extentLow s m) w).toNat) ∧
  (∀ (m : Mark) (s : State),
    let add := fun (o : Order) (credit extra : Nat) =>
      let t := { s with os := { s.os with
        compensation := s.os.compensation + extra,
        credits := (s.os.credits.filter fun x => x.mark != m.id) ++ [⟨m.id, credit⟩] } }
      (modOrder o.id (fun x => { x with planned := x.planned.map (· + extra) }) t, true)
    takeNotice m s = match currentOrder s with
      | none => (s, false)
      | some o =>
        if o.feed = .feeding ∧ o.committedBefore = false then
          match noticeOverlap s (o.startW.getD 0) m with
          | none => (s, false)
          | some part =>
            let credit := ((part + o.cutLength - 1) / o.cutLength + 1) * o.cutLength
            match s.os.credits.find? (fun x => x.mark == m.id) with
            | none => add o credit credit
            | some old => if old.amount < credit then add o credit (credit - old.amount) else (s, false)
        else (s, false)) ∧
  (∀ (n : Order) (w : WebPos) (stands : List Nat) (s : State), claimSplices n w stands s =
    stands.foldl (fun t k => plannedClaim id k w ((gradePaper t n.grade k).getD 0) n.layout.boardWidth t) s) ∧
  (∀ s : State, singleDone s =
    if s.os.mode = .single then { s with os := { s.os with mode := .hold, holdCause := .singleDone } } else s) ∧
  (∀ (n : Order) (s : State),
    let w := webPos (lineCount s)
    let claimed := claimSplices n w (differingStands s n) (enterFeeding n w s)
    let knives := knifeAssign (knifeQuery s n.layout) none n.id n.layout claimed
    let t := singleDone (insertBoundary releaseArrival id w none n.id knives)
    startFirstOrder n s = { t with os := { t.os with heldReason := none },
                                   me := { t.me with feedStarts := t.me.feedStarts ++ [n.id] } }) ∧
  (∀ (c n : Order) (s : State),
    let e := webPos (max (c.startW.getD 0 + c.planned.getD 0) (lineCount s + s.pt.geometry.dPre))
    let ended := modOrder c.id (fun o => { o with
      endW := some e, feed := .committed, committedBefore := true,
      planned := if o.committedBefore = true then o.planned else some (e - o.startW.getD 0).toNat }) s
    let fed := modOrder n.id (fun o => { o with feed := .next }) ended
    let claimed := claimSplices n e (differingStands s n) { fed with os := { fed.os with credits := [] } }
    let knives := knifeAssign (knifeQuery s n.layout) (some c.id) n.id n.layout claimed
    let t := singleDone (insertBoundary releaseArrival id e (some c.id) n.id knives)
    commit c n s = { t with os := { t.os with heldReason := none } }) ∧
  (∀ (b : BoundaryRef) (fromOrder : Option OrderId) (toOrder : OrderId) (s : State),
    (isRelease s fromOrder toOrder = true ↔ ∃ c n, currentOrder s = some c ∧ c.feed = .committed ∧
      nextOrder s = some n ∧ fromOrder = some c.id ∧ toOrder = n.id) ∧
    (isRelease s fromOrder toOrder = false →
      takeRelease b fromOrder toOrder s = s ∧ releaseArrival b fromOrder toOrder s = s) ∧
    (isRelease s fromOrder toOrder = true →
      takeRelease b fromOrder toOrder s = evaluate (handFeedStarts (releaseArrival b fromOrder toOrder s))) ∧
    (∀ c n, currentOrder s = some c → nextOrder s = some n → isRelease s fromOrder toOrder = true →
      let t := enterFeeding n b.w (modOrder c.id
        (fun o => { o with feed := .fed, released := (o.endW.getD 0 - o.startW.getD 0).toNat }) s)
      releaseArrival b fromOrder toOrder s =
        { t with os := { t.os with heldReason := none }, me := { t.me with feedStarts := t.me.feedStarts ++ [n.id] } }))

/-- ORDER_APPEND of a valid new order with room in the queue places it at the tail, QUEUED and WAITING with all counts 0,
answers with its queue index, and an evaluation follows; FULL, DUPLICATE and the failing check refuse it in that order. The
check is the first of the eleven of Table 3-2 that fails, on the record and the tables as they stand. -/
def Obligations.OrderAppendPlacesAtTheTail : Prop :=
  (∀ (h : ReqHeader) (number : Nat) (v : OrderFields) (p : ShortPolicy) (s : State), Reaches h .supervisor s →
    (64 ≤ s.os.orders.length → exec (.orderAppend h (.fields (number, v))) s =
      .next (answered h .supervisor 8 (.refused .full .none .none) s)) ∧
    (s.os.orders.length < 64 → (orderOf s ⟨number, 0⟩).isSome = true → exec (.orderAppend h (.fields (number, v))) s =
      .next (answered h .supervisor 8 (.refused .duplicate .none .none) s)) ∧
    (s.os.orders.length < 64 → orderOf s ⟨number, 0⟩ = none → ∀ d, orderCheck s v = some d →
      exec (.orderAppend h (.fields (number, v))) s = .next (answered h .supervisor 8 (.refused .parameter d .none) s)) ∧
    (s.os.orders.length < 64 → orderOf s ⟨number, 0⟩ = none → orderCheck s v = none → v.policy = .named p →
      exec (.orderAppend h (.fields (number, v))) s = .next (answered h .supervisor 8
        (.accepted (.queueIndex s.os.orders.length))
        (evaluate { s with os := { s.os with orders := s.os.orders ++
          [{ id := ⟨number, 0⟩, parent := none, target := v.target, overrun := v.overrun, layout := v.layout,
             cutLength := v.cutLength, grade := v.grade, stackHeight := v.stackHeight, policy := p,
             holdAfter := v.holdAfter, feed := .queued, cutState := .waiting, startW := none, planned := none, endW := none,
             committedBefore := false, cancelPending := false, released := 0, cuts := 0, good := 0, rejects := [] }] } })))) ∧
  (∀ (v : OrderFields) (s : State),
    let l := v.layout
    let named := match v.policy with
      | .named _ => true
      | .beyond _ => false
    let paper := fun (i : Nat) => ((s.zr.grades[v.grade]?).join.bind fun g => g.papers[i]?).join
    orderCheck s v = ([
      if 1 ≤ l.lanes.length ∧ l.lanes.length ≤ 8 ∧ (∀ x ∈ l.lanes, x.scores.length ≤ 4) ∧ v.overrun ≤ 255 ∧ v.grade ≤ 31 ∧
        named = true then none else some .fieldRange,
      if 600 ≤ l.boardWidth ∧ l.boardWidth ≤ 2800 then none else some .widthRange,
      if 400 ≤ v.cutLength ∧ v.cutLength ≤ 9000 then none else some .cutRange,
      if 1 ≤ v.target ∧ v.target ≤ 16777215 then none else some .targetRange,
      if 5 ≤ v.stackHeight ∧ v.stackHeight ≤ 2000 then none else some .stackRange,
      if (l.lanes.map (·.width)).sum + l.leftTrim + l.rightTrim = l.boardWidth then none else some .laneSum,
      if ∀ x ∈ l.lanes, s.pt.geometry.minLane ≤ x.width then none else some .laneNarrow,
      if s.pt.geometry.minTrim ≤ l.leftTrim ∧ s.pt.geometry.minTrim ≤ l.rightTrim then none else some .trimNarrow,
      if ∀ x ∈ l.lanes, x.scores.Pairwise (· < ·) then none else some .scoreOrder,
      if ∀ x ∈ l.lanes, ∀ p ∈ x.scores, 5 ≤ p ∧ p + 5 ≤ x.width then none else some .scoreEdge,
      if ∀ i < s.sc.stands.length, (paper i).isSome = true then none else some .gradeMissing
    ] : List (Option Detail)).findSome? id)

/-- ORDER_AMEND: an order not in the queue is NOT_FOUND; an empty mask is accepted and changes nothing; a mask beyond the six
groups is FIELD_RANGE (log entry 20). The first masked group that the order's feed state does not take (Table 3-6) refuses it,
then the first failing check: the ranges of the fields written and, for a QUEUED order or under a withdrawal, the record in
full (a forced change of only COUNTS, STACK or POLICY of the NEXT order gets no full check, log entry 68). Otherwise the masked
groups are written, after the withdrawal that a forced LAYOUT, CUT or GRADE change of the NEXT order makes, and an evaluation
follows; a COUNTS change of a FEEDING order not committed before plans it again. -/
def Obligations.OrderAmendWritesTheGroups : Prop :=
  (∀ (h : ReqHeader) (id : OrderId) (v : OrderFields) (s : State), Reaches h .supervisor s →
     (orderOf s id = none → exec (.orderAmend h (.fields (id, v))) s =
       .next (answered h .supervisor 9 (.refused .notFound .none .none) s)) ∧
     (∀ o, orderOf s id = some o → h.mask = 0 → exec (.orderAmend h (.fields (id, v))) s =
       .next (answered h .supervisor 9 (.accepted .none) s)) ∧
     (∀ o, orderOf s id = some o → 64 ≤ h.mask.toNat → exec (.orderAmend h (.fields (id, v))) s =
       .next (answered h .supervisor 9 (.refused .parameter .fieldRange .none) s)) ∧
     (∀ o r, orderOf s id = some o → h.mask.toNat < 64 → amendRefusal o.feed h.force h.mask = some r →
       exec (.orderAmend h (.fields (id, v))) s = .next (answered h .supervisor 9 (.refused r .none .none) s)) ∧
     (∀ o d, orderOf s id = some o → h.mask ≠ 0 → h.mask.toNat < 64 → amendRefusal o.feed h.force h.mask = none →
       amendCheck s o h.mask v = some d →
       exec (.orderAmend h (.fields (id, v))) s = .next (answered h .supervisor 9 (.refused .parameter d .none) s)) ∧
     (∀ o, orderOf s id = some o → h.mask ≠ 0 → h.mask.toNat < 64 → amendRefusal o.feed h.force h.mask = none →
       amendCheck s o h.mask v = none →
       let t := if amendWithdraws o h.mask then withdrawNext o s else s
       exec (.orderAmend h (.fields (id, v))) s = .next (answered h .supervisor 9 (.accepted .none)
         (evaluate (modOrder id (amendedOrder t.os.compensation h.mask v) t))))) ∧
  (∀ (force : Bool),
     groupRefusal .queued force 0 = none ∧ groupRefusal .next force 0 = none ∧ groupRefusal .feeding force 0 = none ∧
     groupRefusal .committed force 0 = (if force then none else some .inUse) ∧
     groupRefusal .fed force 0 = (if force then none else some .inUse) ∧
     (∀ g, 1 ≤ g → g ≤ 3 →
       groupRefusal .queued force g = none ∧ groupRefusal .next force g = (if force then none else some .inUse) ∧
       groupRefusal .feeding force g = some (if force then .tooLate else .inUse) ∧
       groupRefusal .committed force g = some .tooLate ∧ groupRefusal .fed force g = some .tooLate) ∧
     (∀ f g, 4 ≤ g → g ≤ 5 → groupRefusal f force g = none)) ∧
  (∀ (f : FeedState) (force : Bool) (mask : Byte), amendRefusal f force mask =
     ([0, 1, 2, 3, 4, 5].filter fun g => mask.getLsbD g).findSome? (groupRefusal f force)) ∧
  (∀ (mask : Byte) (v : OrderFields) (o : Order) (s : State),
     let m := fun (g : Nat) => mask.getLsbD g
     let l := v.layout
     let named := match v.policy with
       | .named _ => true
       | .beyond _ => false
     let written : OrderFields :=
       { target := if m 0 then v.target else o.target, overrun := if m 0 then v.overrun else o.overrun,
         layout := if m 1 then v.layout else o.layout, cutLength := if m 2 then v.cutLength else o.cutLength,
         grade := if m 3 then v.grade else o.grade, stackHeight := if m 4 then v.stackHeight else o.stackHeight,
         policy := if m 5 then v.policy else .named o.policy, holdAfter := if m 5 then v.holdAfter else o.holdAfter }
     (amendWithdraws o mask = true ↔ o.feed = .next ∧ (m 1 = true ∨ m 2 = true ∨ m 3 = true)) ∧
     amendCheck s o mask v = ([
       if (m 1 = true → 1 ≤ l.lanes.length ∧ l.lanes.length ≤ 8 ∧ ∀ x ∈ l.lanes, x.scores.length ≤ 4) ∧
         (m 0 = true → v.overrun ≤ 255) ∧ (m 3 = true → v.grade ≤ 31) ∧ (m 5 = true → named = true) then none
         else some .fieldRange,
       if m 1 = true → 600 ≤ l.boardWidth ∧ l.boardWidth ≤ 2800 then none else some .widthRange,
       if m 2 = true → 400 ≤ v.cutLength ∧ v.cutLength ≤ 9000 then none else some .cutRange,
       if m 0 = true → 1 ≤ v.target ∧ v.target ≤ 16777215 then none else some .targetRange,
       if m 4 = true → 5 ≤ v.stackHeight ∧ v.stackHeight ≤ 2000 then none else some .stackRange,
       if o.feed = .queued ∨ (o.feed = .next ∧ (m 1 = true ∨ m 2 = true ∨ m 3 = true)) then orderCheck s written else none
     ] : List (Option Detail)).findSome? id ∧
     (∀ (comp : Nat) (p : ShortPolicy), (m 5 = true → v.policy = .named p) →
       let lanes := written.layout.lanes.length
       amendedOrder comp mask v o = { o with
         target := written.target, overrun := written.overrun, layout := written.layout, cutLength := written.cutLength,
         grade := written.grade, stackHeight := written.stackHeight, policy := if m 5 then p else o.policy,
         holdAfter := written.holdAfter,
         planned := if m 0 = true ∧ o.feed = .feeding ∧ o.committedBefore = false then
             some ((written.target + lanes - 1) / lanes * written.cutLength + written.overrun * written.cutLength + comp)
           else o.planned }))

/-- ORDER_CANCEL by feed state: NOT_FOUND, the removal of a QUEUED order with its ORDER report, a NEXT order after a withdrawal
with FORCE, a FEEDING order made cancel pending with FORCE, IN_USE without it, TOO_LATE for COMMITTED and FED; an evaluation
follows. Trigger entries naming the removed order's feed start or close are removed, each with a report ORPHANED, in index order
(log entry 63) and ahead of that evaluation (log entry 6), and the held reason of a removed queued head stays (log entry 47). A
withdrawal removes the boundary from the current to the NEXT order at the end w, hands each block the withdrawal of a threshold
already dispatched, in the order of dispatch (log entry 69), cancels the planned splices for the end w at every stand, in stand
number order (log entry 64), releases the knives' assignment, makes the current order FEEDING with no end w and the NEXT order
QUEUED, and clears the held reason; the evaluations the blocks' notices call for wait for the one at its end (log entry 6). -/
def Obligations.OrderCancelByFeedState : Prop :=
  (∀ (h : ReqHeader) (id : OrderId) (s : State), Reaches h .supervisor s →
    (orderOf s id = none → exec (.orderCancel h (.fields id)) s =
      .next (answered h .supervisor 10 (.refused .notFound .none .none) s)) ∧
    (∀ o, orderOf s id = some o →
      (o.feed = .queued → exec (.orderCancel h (.fields id)) s = .next (answered h .supervisor 10 (.accepted .none)
        (evaluate (orphanEntries id (removeOrder id (report (.order o .cancelled) s)))))) ∧
      (o.feed = .next → h.force = true → exec (.orderCancel h (.fields id)) s = .next (answered h .supervisor 10
        (.accepted .none) (evaluate (cancelQueued id (withdrawNext o s))))) ∧
      (o.feed = .feeding → h.force = true → exec (.orderCancel h (.fields id)) s = .next (answered h .supervisor 10
        (.accepted .none) (evaluate (modOrder id (cancelledFeeding s.os.compensation) s)))) ∧
      ((o.feed = .next ∨ o.feed = .feeding) → h.force = false → exec (.orderCancel h (.fields id)) s =
        .next (answered h .supervisor 10 (.refused .inUse .none .none) s)) ∧
      ((o.feed = .committed ∨ o.feed = .fed) → exec (.orderCancel h (.fields id)) s =
        .next (answered h .supervisor 10 (.refused .tooLate .none .none) s)))) ∧
  (∀ (id : OrderId) (s : State), cancelQueued id s =
    match s.os.orders.find? (fun o => o.id == id) with
    | none => s
    | some o => orphanEntries id (removeOrder id (report (.order o .cancelled) s))) ∧
  (∀ (comp : Nat) (o : Order), cancelledFeeding comp o = { o with
    cancelPending := true, target := o.good,
    planned := if o.committedBefore = true then o.planned else some
      ((o.good + o.layout.lanes.length - 1) / o.layout.lanes.length * o.cutLength + o.overrun * o.cutLength + comp) }) ∧
  (∀ (c n : Order) (s : State), currentOrder s = some c →
    let between := s.sm.marks.find? fun m => match m.kind with
      | .boundary (some a) b _ => a == c.id && b == n.id && m.w == c.endW.getD 0
      | _ => false
    let unmarked := match between with
      | none => s
      | some m =>
        let r := removeBoundary id m.id s
        (r.2.getD []).foldl (fun t x => match x with
          | .release => t
          | .zone z => withdrawZone id m.id z t
          | .knifeApproach k => withdrawKnife id m.id k t
          | .knifeArrival k => withdrawKnife id m.id k t
          | .cutoff => withdrawPlan m.id t) r.1
    let spliced := ((List.range unmarked.sc.stands.length).map (· + 1)).foldl
      (fun t k => cancelPlanned id (c.endW.getD 0) k t) unmarked
    let freed := modOrder c.id (fun o => { o with feed := .feeding, endW := none }) (knifeRelease n.id spliced)
    let queued := modOrder n.id (fun o => { o with feed := .queued }) freed
    withdrawNext n s = { queued with os := { queued.os with heldReason := none } }) ∧
  (∀ (id : OrderId) (s : State),
    let names := fun (e : TriggerEntry) => e.trigger = .feedStart id ∨ e.trigger = .orderClosed id
    orphanEntries id s = (List.range s.me.triggers.length).foldl (fun t i =>
      match (t.me.triggers[i]?).join with
      | some e =>
        if names e then
          report (.trigger { index := i, entry := e, outcome := .orphaned, reply := none })
            { t with me := { t.me with triggers := t.me.triggers.set i none } }
        else t
      | none => t) s ∧
    (orphanEntries id s).me.triggers = s.me.triggers.map fun x => x.bind fun e => if names e then none else some e)

/-- ORDER_FRONT: an absent order is NOT_FOUND, one not QUEUED IN_USE; a QUEUED order goes to the queued head, the other queued
orders keep their order, and an evaluation follows. -/
def Obligations.OrderFrontMovesToTheHead : Prop :=
  ∀ (h : ReqHeader) (id : OrderId) (s : State), Reaches h .supervisor s →
    (orderOf s id = none → exec (.orderFront h (.fields id)) s =
      .next (answered h .supervisor 11 (.refused .notFound .none .none) s)) ∧
    (∀ o, orderOf s id = some o → o.feed ≠ .queued → exec (.orderFront h (.fields id)) s =
      .next (answered h .supervisor 11 (.refused .inUse .none .none) s)) ∧
    (∀ o, orderOf s id = some o → o.feed = .queued → exec (.orderFront h (.fields id)) s =
      .next (answered h .supervisor 11 (.accepted .none) (evaluate { s with os := { s.os with orders :=
        (s.os.orders.filter fun x => x.feed != .queued) ++ [o] ++
          (s.os.orders.filter fun x => x.feed == .queued && x.id != o.id) } })))

/-! ## Knife stations -/

/-- The knife stations. Query and assignment (R74, R75): a current order whose station is READY or ENGAGED with the layout is
shared, else the other station where it is assignable; with no current order a READY one of equal layout, A where both are (log
entry 71), else A before B (a current order that ends no list counts as none, log entry 48); a named station READY with the
layout stays READY, one FAULTED stays FAULTED with no layout given (log entry 67), another is given the layout. Approach and
arrival by the station's relation to the boundary (R77, R78; log entries 21, 50, 51; a to-station already ENGAGED at its
approach, log entry 54). Status changes (R73, R79 to R82): a rising ready serves a WAITING engage; engaged ends a late set;
lifted ends an outstanding LIFT or marks served board late; a fault of an ENGAGED station in RUNNING opens a window, claims
stop and hold and then reports (log entry 55), and its falling closes the window, re-sends the layout (log entry 52) and marks
board present late. A LATE_SET window opens at the engage's position once a window still held is closed (log entry 45), with
the state of that moment in its report (log entry 49); the memory of a refused one is the model's (log entry 17). Withdrawals
undo an approach (the LATE_SET window held is taken as the boundary's, log entry 60) and a release takes the order from both
lists (R76). The evaluations are made at their notices (log entry 6). A KNIFE report's mark id, of LATE and LATE_END the
engage's and of the others none, is the model's (log entry 72). -/
def Obligations.KnifeReadyChanges : Prop :=
  (∀ (k : KnifeId) (s : State),
    ((knifeOf s k).state = .setting → knifeReadyRises evaluate k s =
      evaluate (serveEngage k (modKnife k (fun r => { r with state := .ready }) s))) ∧
    ((knifeOf s k).state ≠ .setting → knifeReadyRises evaluate k s = s) ∧
    ((knifeOf s k).state = .ready → knifeReadyFalls k s =
      modKnife k (fun r => { r with state := .setting, engage := r.engage.map fun e => { e with waiting := true } }) s) ∧
    ((knifeOf s k).state ≠ .ready → knifeReadyFalls k s = s)) ∧
  (∀ (k : KnifeId) (s : State), serveEngage k s =
    match (knifeOf s k).engage with
    | none => s
    | some e =>
      if e.waiting = true then
        modKnife k (fun r => { r with engage := some { e with waiting := false } })
          (direct (knifeRole k) (.engage (.at e.w)) s)
      else s) ∧
  (∀ (f : KnifeRecord → KnifeRecord) (s : State), knifeOf s .a = s.kc.a ∧ knifeOf s .b = s.kc.b ∧
    modKnife .a f s = { s with kc := { s.kc with a := f s.kc.a } } ∧
    modKnife .b f s = { s with kc := { s.kc with b := f s.kc.b } }) ∧
  (∀ (k : KnifeId) (c : WindowCause) (src : Source),
    knifeOwns k c src = true ↔ (c = .lateSet ∨ c = .knifeFault) ∧ src = .knife k) ∧
  (∀ (r : KnifeRecord), r.assignable = true ↔ r.served = [] ∧ (r.state = .idle ∨ r.state = .ready)) ∧
  (∀ (l : Layout) (s : State),
    let holds := fun (k : KnifeId) => (knifeOf s k).held.map (·.layout) = some l
    let fits := fun (k : KnifeId) => (knifeOf s k).assignable = true ∧ (knifeOf s k).state = .ready ∧ holds k
    let ends := fun (o : Order) (k : KnifeId) => (knifeOf s k).served.getLast? = some o.id
    (∀ o x y, currentOrder s = some o → ((x = .a ∧ y = .b) ∨ (x = .b ∧ y = .a ∧ ¬ends o .a)) → ends o x → knifeQuery s l =
      if ((knifeOf s x).state = .ready ∨ (knifeOf s x).state = .engaged) ∧ holds x then .shared
      else if (knifeOf s y).assignable = true then .station y else .none) ∧
    ((∀ o, currentOrder s = some o → ¬ends o .a ∧ ¬ends o .b) → knifeQuery s l =
      if fits .a then .station .a else if fits .b then .station .b
      else if s.kc.a.assignable = true then .station .a else if s.kc.b.assignable = true then .station .b else .none)) ∧
  (∀ (k : KnifeId) (l : Layout) (n : OrderId) (s : State), giveLayout k l n s =
    modKnife k (fun r => { r with state := .setting, held := some ⟨l, n⟩ }) (direct (knifeRole k) (.setLayout n l) s)) ∧
  (∀ (c : Option OrderId) (n : OrderId) (l : Layout) (s : State), knifeAssign .none c n l s = s ∧
    (∀ k,
      let t := modKnife k (fun r => { r with served := [n] }) s
      knifeAssign (.station k) c n l s =
        if (knifeOf s k).state = .faulted ∨ ((knifeOf s k).state = .ready ∧ (knifeOf s k).held.map (·.layout) = some l) then t
        else giveLayout k l n t) ∧
    (∀ o x, c = some o → (knifeOf s x).served.getLast? = some o → (x = .b → s.kc.a.served.getLast? ≠ some o) →
      knifeAssign .shared c n l s = modKnife x (fun r => { r with served := r.served ++ [n] }) s)) ∧
  (∀ (r : KnifeRecord) (c n : OrderId),
    (relation r (some c) n = if c ∈ r.served then (if n ∈ r.served then .shared else .fromStation)
      else (if n ∈ r.served then .toStation else .neither)) ∧
    (relation r none n = if n ∈ r.served then .toStation else .neither)) ∧
  (∀ (ev : State → State) (k : KnifeId) (b : BoundaryRef) (c : Option OrderId) (n : OrderId) (s : State),
    knifeApproach ev k b c n s = match relation (knifeOf s k) c n with
      | .fromStation =>
        if (knifeOf s k).state = .engaged then
          modKnife k (fun r => { r with lift := some b }) (direct (knifeRole k) (.lift (.at b.w)) s)
        else s
      | .toStation => match (knifeOf s k).state with
        | .ready => modKnife k (fun r => { r with engage := some ⟨false, some b.mark, b.w⟩ })
            (direct (knifeRole k) (.engage (.at b.w)) s)
        | .engaged => s
        | _ => openLate ev k (modKnife k (fun r => { r with engage := some ⟨true, some b.mark, b.w⟩ }) s)
      | _ => s) ∧
  (∀ (ev : State → State) (k : KnifeId) (b : BoundaryRef) (c n : OrderId) (s : State),
    (relation (knifeOf s k) (some c) n = .shared → knifeArrival ev k b (some c) n s =
      modKnife k (fun r => { r with served := r.served.filter fun o => o != c }) s) ∧
    (∀ x, relation (knifeOf s k) x n = .neither → knifeArrival ev k b x n s = s) ∧
    (∀ x, relation (knifeOf s k) x n = .toStation →
      let t := modKnife k (fun r => { r with boardPresent := true }) s
      let late := modKnife k (fun r => { r with engage := some ⟨true, some b.mark, b.w⟩ }) t
      knifeArrival ev k b x n s =
        if (knifeOf s k).state = .engaged ∨ (knifeOf s k).state = .ready ∨
            (∃ e, (knifeOf s k).engage = some e ∧ e.waiting = true) then t
        else if (knifeOf s k).window = none then openLate ev k late else late) ∧
    (relation (knifeOf s k) (some c) n = .fromStation →
      let left := (knifeOf s k).served.filter fun o => o != c
      let t := modKnife k
        (fun r => { r with served := left, boardPresent := r.boardPresent && !left.isEmpty }) s
      let lifted := match (knifeOf s k).state, (knifeOf s k).lift, (knifeOf s k).engage with
        | .engaged, none, _ => modKnife k (fun r => { r with lift := some b }) (direct (knifeRole k) (.lift .atOnce) t)
        | .ready, _, some e =>
          if e.waiting = true then t
          else modKnife k (fun r => { r with engage := none }) (direct (knifeRole k) (.lift .atOnce) t)
        | _, _, _ => t
      let closed := modKnife k (fun r => { r with lateRefused := false }) (closeKnifeWindow ev k (some b.w) lifted).1
      knifeArrival ev k b (some c) n s =
        if (knifeOf closed k).state = .ready ∧ (knifeOf closed k).served = [] then ev closed else closed)) ∧
  (∀ (ev : State → State) (k : KnifeId) (far : Option WebPos) (s : State), closeKnifeWindow ev k far s =
    match (knifeOf s k).window with
    | none => (s, none)
    | some (.late m) =>
      let r := closeWindow ev m (knifeOwns k) far (modKnife k (fun r => { r with window := none }) s)
      (r.1, some (m, r.2))
    | some (.fault m) =>
      let r := closeWindow ev m (knifeOwns k) far (modKnife k (fun r => { r with window := none }) s)
      (r.1, some (m, r.2))) ∧
  (∀ (ev : State → State) (k : KnifeId) (e : Engage) (s : State), (knifeOf s k).engage = some e →
    let unheld := (closeKnifeWindow ev k none s).1
    let unc : ClaimUncertainty := match e.mark with
      | some id => .like id
      | none => .exact 0
    let r := insertMark ev { kind := .window .lateSet (.knife k) .openEnded, w := e.w, uncertainty := unc } unheld
    let kept := match r.2 with
      | .refused => modKnife k (fun q => { q with window := none, lateRefused := true }) r.1
      | .admitted id => modKnife k (fun q => { q with window := some (.late id), lateRefused := false }) r.1
      | .merged id => modKnife k (fun q => { q with window := some (.late id), lateRefused := false }) r.1
    let word : WindowWord := match r.2 with
      | .refused => .refused
      | .admitted id => .mark id
      | .merged id => .mark id
    openLate ev k s = knifeReport k (.late word e.w) (knifeOf kept k).state e.mark kept) ∧
  (∀ (ev : State → State) (k : KnifeId) (s : State),
    let r := knifeOf s k
    let down := modKnife k (fun r => { r with state := .engaged, engage := none }) s
    let engageW := (r.engage.map (·.w)).getD 0
    let mark := r.engage.bind (·.mark)
    ((r.state = .engaged ∨ r.state = .faulted) → knifeEngagedRises ev k s = s) ∧
    ((r.state = .idle ∨ r.state = .setting ∨ r.state = .ready) →
      (∀ id, r.window = some (.late id) →
        let w := ((markOf s id).map (·.w)).getD engageW
        let c := closeKnifeWindow ev k none down
        knifeEngagedRises ev k s = match c.2.bind (·.2) with
          | some len => knifeReport k (.lateEnd id w len) r.state mark c.1
          | none => knifeReport k (.lateEndRefused w (boardAt c.1 (knifeOffset c.1 k))) r.state mark c.1) ∧
      ((∀ id, r.window ≠ some (.late id)) → r.lateRefused = true → knifeEngagedRises ev k s =
        knifeReport k (.lateEndRefused engageW (boardAt s (knifeOffset s k))) r.state mark
          (modKnife k (fun r => { r with lateRefused := false }) down)) ∧
      ((∀ id, r.window ≠ some (.late id)) → r.lateRefused = false → knifeEngagedRises ev k s = down))) ∧
  (∀ (ev : State → State) (k : KnifeId) (s : State),
    let r := knifeOf s k
    let ready := (roleWord s (knifeRole k)).getLsbD 0
    (r.state ≠ .engaged → knifeLiftedRises ev k s = s) ∧
    (∀ b, r.state = .engaged → r.lift = some b →
      let left := r.served.filter fun o => some o != boundaryFrom s b.mark
      let t := modKnife k (fun r => { r with
        served := left, lift := none, state := .idle, boardPresent := r.boardPresent && !left.isEmpty }) s
      knifeLiftedRises ev k s = if left = [] then ev t else t) ∧
    (r.state = .engaged → r.lift = none → r.served = [] →
      knifeLiftedRises ev k s = ev (modKnife k (fun r => { r with state := .idle }) s)) ∧
    (r.state = .engaged → r.lift = none → r.served ≠ [] →
      let w := boardAt s (knifeOffset s k)
      let up := modKnife k (fun r => { r with engage := some ⟨true, none, w⟩ })
        (modKnife k (fun r => { r with state := if ready = true then .ready else .setting }) s)
      let told := knifeReport k (.liftUnasked w) .engaged none (openLate ev k up)
      knifeLiftedRises ev k s = if ready = true then ev (serveEngage k told) else told)) ∧
  (∀ (s : State) (id : MarkId), boundaryFrom s id = (match (markOf s id).map (·.kind) with
    | some (.boundary c _ _) => c
    | _ => none)) ∧
  (∀ (ev : State → State) (k : KnifeId) (s : State),
    let r := knifeOf s k
    let cut := modKnife k (fun r => { r with state := .faulted, lift := none, engage := none }) s
    let x := insertMark ev
      { kind := .window .knifeFault (.knife k) .openEnded, w := boardAt cut (knifeOffset cut k), uncertainty := .exact 0 } cut
    let kept := match x.2 with
      | .refused => modKnife k (fun q => { q with window := none }) x.1
      | .admitted id => modKnife k (fun q => { q with window := some (.fault id) }) x.1
      | .merged id => modKnife k (fun q => { q with window := some (.fault id) }) x.1
    let word : WindowWord := match x.2 with
      | .refused => .refused
      | .admitted id => .mark id
      | .merged id => .mark id
    let held := claimStop .knifeFault kept
    (r.state = .faulted → knifeFaultRises ev k s = s) ∧
    (r.state = .engaged → s.me.running = true → knifeFaultRises ev k s = knifeReport k (.fault word true) .engaged none
      { held with os := { held.os with mode := .hold, holdCause := .knifeFault } }) ∧
    (r.state = .engaged → s.me.running = false →
      knifeFaultRises ev k s = knifeReport k (.fault .none false) .engaged none cut) ∧
    ((r.state = .idle ∨ r.state = .setting ∨ r.state = .ready) → knifeFaultRises ev k s =
      knifeReport k (.fault .none false) r.state none (modKnife k (fun r => { r with
        state := .faulted, engage := r.engage.map fun e => { e with waiting := true } }) s))) ∧
  (∀ (ev : State → State) (k : KnifeId) (s : State),
    let c := match (knifeOf s k).window with
      | some (.fault _) => closeKnifeWindow ev k none s
      | _ => (s, none)
    let closed := c.2.bind fun p => p.2.map fun l => (p.1, l)
    let t := modKnife k (fun r => { r with state := .idle }) c.1
    ((knifeOf s k).state ≠ .faulted → knifeFaultFalls ev k s = s) ∧
    ((knifeOf s k).state = .faulted → (knifeOf t k).served = [] →
      knifeFaultFalls ev k s = knifeReport k (.faultEnd closed none) .faulted none (ev t)) ∧
    (∀ id rest l, (knifeOf s k).state = .faulted → (knifeOf t k).served = id :: rest →
      (((orderOf t id).map (·.layout) = some l) ∨ (orderOf t id = none ∧ (knifeOf t k).held.map (·.layout) = some l)) →
      let sent := giveLayout k l id t
      let late := modKnife k (fun r => { r with engage := some ⟨true, none, boardAt sent (knifeOffset sent k)⟩ }) sent
      knifeFaultFalls ev k s = knifeReport k (.faultEnd closed (some ⟨l, id⟩)) .faulted none
        (if (knifeOf sent k).boardPresent = true ∧ ¬(∃ e, (knifeOf sent k).engage = some e ∧ e.waiting = true) then
          openLate ev k late else sent))) ∧
  (∀ (ev : State → State) (k : KnifeId) (id : MarkId) (s : State),
    let r := knifeOf s k
    let t := if r.lift.map (·.mark) = some id then
        modKnife k (fun r => { r with lift := none }) (direct (knifeRole k) (.engage .atOnce) s) else s
    (∀ e, r.engage = some e → e.mark = some id →
      let cleared := modKnife k (fun r => { r with engage := none, lateRefused := false })
        (if e.waiting = true then t else direct (knifeRole k) (.lift .atOnce) t)
      withdrawKnife ev id k s = match r.window with
        | some (.late _) => (closeKnifeWindow ev k none cleared).1
        | _ => cleared) ∧
    ((∀ e, r.engage = some e → e.mark ≠ some id) → withdrawKnife ev id k s = t)) ∧
  (∀ (n : OrderId) (s : State), knifeRelease n s = { s with kc :=
    { a := { s.kc.a with served := s.kc.a.served.filter fun o => o != n },
      b := { s.kc.b with served := s.kc.b.served.filter fun o => o != n } } }) ∧
  (∀ (k : KnifeId) (e : KnifeEvent) (before : KnifeState) (boundary : Option MarkId) (s : State),
    knifeReport k e before boundary s = report (.knife {
      station := k, event := e, before := before, after := (knifeOf s k).state, served := (knifeOf s k).served,
      boundary := boundary }) s)

/-! ## Cuts, the gate and the stacker -/

/-- A CUT frame from the CUTOFF station is forwarded and handed to the Cut Classifier. There, in CONFIGURING it sets the last
cut sequence alone; in RUNNING a duplicate is counted and changes nothing else, the next in sequence is taken as expected, and
one after k lost cuts as k + 1 pieces. An expected cut with no previous wc sets it, removing plan entries as missed trims; one
beyond it is taken as the sheet between, and one at or below it as an empty sheet there. A gap's span from the previous wc to
the greater of wc and it is cut into pieces of a (k + 1)-th, rounded down, the last up to its end, each queried over the whole
span, the TRIM flag with the last; the lost cuts are counted. A boundary's approach at the cutoff places CUT_PLAN and a plan
entry in order of w for a to-order in the queue; after a cut the entries at or below its end go, one at it with the TRIM flag as
a clean trim, others as missed trims; a withdrawal removes the entry and places CANCEL. A wc out of range is free (log entry 4).
-/
def Obligations.CutReachesTheClassifier : Prop :=
  (∀ (h : FrameHeader) (offset : Word16) (flags : Byte) (i : Nat) (e : Station) (s : State),
    Observes h i e s → e.role = .cutoff →
    exec (.cut h offset flags) s = .next (takeCut h.sequence offset.toNat (flags.getLsbD 0)
      (forward (.octets (frameOctets h.target h.origin 4 h.sequence (octetsOf offset ++ [flags]))) s))) ∧
  (∀ (seq : Byte) (offset : Nat) (trim : Bool) (s : State),
    let set := { s with cs := { s.cs with lastSeq := some seq } }
    (s.me.running = false → takeCut seq offset trim s = set) ∧
    (s.me.running = true → s.cs.lastSeq = some seq → takeCut seq offset trim s =
      { s with cs := { s.cs with counters := { s.cs.counters with
        duplicate := min (2 ^ 32 - 1) (s.cs.counters.duplicate + 1) } } }) ∧
    (s.me.running = true → (s.cs.lastSeq = none ∨ s.cs.lastSeq = some (seq - 1)) →
      takeCut seq offset trim s = takeExpectedCut offset trim set) ∧
    (∀ last k, s.me.running = true → s.cs.lastSeq = some last → 1 ≤ k → (seq - last).toNat = k + 1 →
      takeCut seq offset trim s = takeGapCut k offset trim set)) ∧
  (∀ (offset : Nat) (trim : Bool) (s : State),
    let wc := webPos (lineCount s + offset - s.pt.geometry.cutoffOffset)
    takeExpectedCut offset trim s = match s.cs.prevWc with
      | none => prunePlan wc false { s with cs := { s.cs with prevWc := some wc } }
      | some p =>
        if p < wc then
          let t := takeSheet p wc p wc trim s
          { t with cs := { t.cs with prevWc := some wc } }
        else takeSheet p p p p trim s) ∧
  (∀ (k offset : Nat) (trim : Bool) (s : State),
    let wc := webPos (lineCount s + offset - s.pt.geometry.cutoffOffset)
    let lost := fun (t : State) => { t with cs := { t.cs with counters := { t.cs.counters with
      lost := min (2 ^ 32 - 1) (t.cs.counters.lost + k) } } }
    (s.cs.prevWc = none → takeGapCut k offset trim s = lost (takeExpectedCut offset trim s)) ∧
    (∀ p, s.cs.prevWc = some p →
      let e := max wc p
      let piece := (e - p).toNat / (k + 1)
      let pieces := (List.range k).foldl
        (fun t i => takeSheet (p + (i * piece : Nat)) (p + ((i + 1) * piece : Nat)) p e false t) s
      let t := takeSheet (p + (k * piece : Nat)) e p e trim pieces
      takeGapCut k offset trim s = lost { t with cs := { t.cs with prevWc := some e } })) ∧
  (∀ (e : WebPos) (trim : Bool) (s : State),
    let gone := s.cs.plan.filter fun x => decide (x.w ≤ e)
    let clean := if trim = true then (gone.filter fun x => decide (x.w = e)).length else 0
    prunePlan e trim s = { s with cs := { s.cs with
      plan := s.cs.plan.filter fun x => decide (e < x.w),
      counters := { s.cs.counters with
        cleanTrims := min (2 ^ 32 - 1) (s.cs.counters.cleanTrims + clean),
        missedTrims := min (2 ^ 32 - 1) (s.cs.counters.missedTrims + (gone.length - clean)) } } }) ∧
  (∀ (b : BoundaryRef) (c : Option OrderId) (n : OrderId) (s : State),
    (orderOf s n = none → cutoffApproach b c n s = s) ∧
    (∀ o, orderOf s n = some o → ∃ x y, (direct .cutoff (.cutPlan (.plan b.w o.cutLength)) s).cs.plan = x ++ y ∧
      (∀ p ∈ x, p.w ≤ b.w) ∧ (s.cs.plan.Pairwise (fun p q => p.w ≤ q.w) → ∀ p ∈ y, b.w < p.w) ∧
      let t := direct .cutoff (.cutPlan (.plan b.w o.cutLength)) s
      cutoffApproach b c n s =
        { t with cs := { t.cs with plan := x ++ (⟨b.mark, b.w, c, n, o.cutLength⟩ : PlanEntry) :: y } })) ∧
  (∀ (id : MarkId) (s : State), withdrawPlan id s = match s.cs.plan.find? (fun e => e.mark == id) with
    | none => s
    | some e => direct .cutoff (.cutPlan (.cancel e.w))
        { s with cs := { s.cs with plan := s.cs.plan.filter fun x => x.mark != id } })

/-- No sheet that a reject extent of a mark overlaps passes the examination before the gate plan, and no sheet is taken GOOD
that did not pass it; a sheet of no order is NO_ORDER. A sheet is taken in R96's order: closes of FED orders ending at or below
its start, oldest first; attribution to the order whose board holds its start; the close of a building stack of another order;
classification by the causes of Table 5-1 in their precedence; the gate plan; the count claim with the counters; the stack of a
GOOD sheet; the plan list; and the close of the order whose end it reaches. Each close is followed by the stack close. A map
cause applies where the answer holds its mark; SHORT, SURPLUS and the stacker causes follow; in TRANSFERRING a deck stack of
another order is marked close-pending. SURPLUS is decided by Table 5-1, also where the target is below the good sheets (DEDUCED,
log entry 59). -/
def Obligations.GoodSheetMeetsNoMark : Prop :=
  (∀ (o : Order) (length : Nat) (a b : WebPos) (s t : State), classify (some o) length a b s = (t, none) →
    ∀ m ∈ s.sm.marks, overlaps s m a b = false) ∧
  (∀ (length : Nat) (a b : WebPos) (s : State), classify none length a b s = (s, some .noOrder)) ∧
  (∀ (c : Option RejectCause) (start : WebPos) (s : State), (applyGate c start s).2 = none → c = none) ∧
  (∀ (a e qs qe : WebPos) (trim : Bool) (s : State),
    let ended := (s.os.orders.filter fun o =>
      o.feed == .fed && (match o.endW with
        | some x => decide (x ≤ a)
        | none => false)).map (·.id)
    let closed := ended.foldl (fun t i => stackOrderEnd i (closeOrder i t)) s
    let o := closed.os.orders.find? fun o =>
      (o.feed == .feeding || o.feed == .committed || o.feed == .fed) &&
        (match o.startW with
          | some x => decide (x ≤ a)
          | none => false) &&
        (match o.endW with
          | some x => decide (a < x)
          | none => true)
    let changed := match o, closed.cs.stacker.current with
      | some o, some k =>
        if closed.cs.stacker.transferring = false ∧ k.order ≠ o.id then closeCurrent .orderEnd closed else closed
      | _, _ => closed
    let x := classify o (e - a).toNat qs qe changed
    let g := applyGate x.2 a x.1
    let one := fun (b : Bool) (n : Nat) => if b = true then min (2 ^ 32 - 1) (n + 1) else n
    let counted := { g.1 with cs := { g.1.cs with counters := { g.1.cs.counters with
      taken := min (2 ^ 32 - 1) (g.1.cs.counters.taken + 1), noOrder := one o.isNone g.1.cs.counters.noOrder,
      dwellLosses := one (g.2 == some .gateDwell) g.1.cs.counters.dwellLosses } } }
    takeSheet a e qs qe trim s = match o with
      | none => prunePlan e trim counted
      | some o =>
        let claimed := countClaim o.id g.2 counted
        let pruned := prunePlan e trim (if g.2 = none then countSheet o e claimed else claimed)
        match (orderOf pruned o.id).bind (·.endW) with
        | some w => if w ≤ e then stackOrderEnd o.id (closeOrder o.id pruned) else pruned
        | none => pruned) ∧
  (∀ (o : Order) (length : Nat) (a b : WebPos) (s : State),
    let causes : List RejectCause :=
      [.boundary, .joint, .knifeFault, .lateSet, .gradeMismatch, .glueStarve, .heatDeviation, .transition, .operator]
    let sheets := ((o.target + o.layout.lanes.length - 1) / o.layout.lanes.length + o.overrun) * o.layout.lanes.length
    let faulted := s.cs.stacker.faulted = true ∨ (roleWord s .stacker).getLsbD 3 = true ∨ (roleWord s .gate).getLsbD 3 = true
    (∀ c, causes.find? (fun c => s.sm.marks.any fun m => overlaps s m a b && markCause m == c) = some c →
      classify (some o) length a b s = (s, some c)) ∧
    ((∀ m ∈ s.sm.marks, overlaps s m a b = false) → classify (some o) length a b s =
      if length + s.pt.geometry.shortTolerance < o.cutLength then (s, some .short)
      else if sheets ≤ o.good then (s, some .surplus)
      else if faulted then (s, some .stackerFault)
      else if s.cs.stacker.transferring = false then (s, none)
      else match s.cs.stacker.deck with
        | none => if s.pt.geometry.deckCapacity = 0 then (s, some .stackerFull) else (s, none)
        | some d =>
          if d.closePending ≠ none ∨ d.order ≠ o.id then (markDeck .orderEnd s, some .stackerBusy)
          else if d.cuts = s.pt.geometry.deckCapacity then (s, some .stackerFull) else (s, none))) ∧
  (∀ (id : MarkId) (w : WebPos) (u : Nat),
    (∀ c n t, markCause ⟨id, w, .boundary c n t, u⟩ = .boundary) ∧ (∀ k, markCause ⟨id, w, .joint k, u⟩ = .joint) ∧
    (∀ src x, markCause ⟨id, w, .window .knifeFault src x, u⟩ = .knifeFault ∧
      markCause ⟨id, w, .window .lateSet src x, u⟩ = .lateSet ∧
      markCause ⟨id, w, .window .gradeMismatch src x, u⟩ = .gradeMismatch ∧
      markCause ⟨id, w, .window .glueStarve src x, u⟩ = .glueStarve ∧
      markCause ⟨id, w, .window .heatDeviation src x, u⟩ = .heatDeviation ∧
      markCause ⟨id, w, .window .transition src x, u⟩ = .transition ∧
      markCause ⟨id, w, .window .operator src x, u⟩ = .operator))

/-- The gate plan's cases (R97): a rejected sheet in planned PASS places GATE REJECT at its start; a candidate past the dwell in
planned REJECT places GATE PASS and is GOOD; within the dwell it is GATE_DWELL; in every other case nothing is placed. A rising
of the cutoff's fault bit in RUNNING places GATE REJECT at once, with the last change at the gate's board, and clears the
previous wc; in CONFIGURING, and at a falling, nothing changes (R98). -/
def Obligations.GatePlanCases : Prop :=
  (∀ (start : WebPos) (s : State),
    let planned := fun (reject : Bool) (t : State) => { t with cs := { t.cs with gate := ⟨reject, some start⟩ } }
    (∀ c, s.cs.gate.reject = false → applyGate (some c) start s =
      (planned true (direct .gate (.gate true (.at start)) s), some c)) ∧
    (∀ c, s.cs.gate.reject = true → applyGate (some c) start s = (s, some c)) ∧
    (s.cs.gate.reject = false → applyGate none start s = (s, none)) ∧
    (s.cs.gate.reject = true → (∀ w, s.cs.gate.lastChange = some w → w + s.pt.geometry.gateDwell ≤ start) →
      applyGate none start s = (planned false (direct .gate (.gate false (.at start)) s), none)) ∧
    (∀ w, s.cs.gate.reject = true → s.cs.gate.lastChange = some w → start < w + s.pt.geometry.gateDwell →
      applyGate none start s = (s, some .gateDwell))) ∧
  (∀ (address offset : Nat) (old new : Word16) (s : State),
    let t := direct .gate (.gate true .atOnce) s
    dispatchWord .cutoff address old new offset s =
      if s.me.running = true ∧ old.getLsbD 3 = false ∧ new.getLsbD 3 = true then
        { t with cs := { t.cs with gate := ⟨true, some (boardAt s s.pt.geometry.gateOffset)⟩, prevWc := none } }
      else s)

/-- The expiry of the running transfer timer: with the line stopped short of the gate it starts again; otherwise the stacker is
faulted, the current stack reported FAULTED, the stop holder and the hold claimed. A stopped timer does not expire (log entry
23). A GOOD sheet is counted in BUILDING into the current stack, which is closed at its height, and in TRANSFERRING into the
deck stack, which is marked close-pending at its height; a first one opens the stack with the next stack sequence. A close
places STACK_TRANSFER at the last sheet's end, reports and starts the timer. An order's end closes its current stack or marks
its deck stack. Transfer-done takes the stack away and promotes the deck stack, closing it at once where it is close-pending;
with the faulted flag set it, as a change of the fault bit, recovers where the word shows done and no fault. A STACK report has
the fields of R107, the transfer position at HEIGHT and ORDER_END alone. -/
def Obligations.TransferTimerExpiry : Prop :=
  (∀ s : State,
    (s.cs.stacker.timer = none → exec .transferTimeout s = .next s) ∧
    (s.cs.stacker.timer ≠ none → s.pt.stopped = true →
      lineCount s - s.pt.geometry.gateOffset < s.cs.stacker.position →
      exec .transferTimeout s = .next { s with cs := { s.cs with stacker := { s.cs.stacker with
        timer := some s.pt.geometry.transferTimeout } } }) ∧
    (∀ k, s.cs.stacker.timer ≠ none → s.cs.stacker.current = some k →
      ¬(s.pt.stopped = true ∧ lineCount s - s.pt.geometry.gateOffset < s.cs.stacker.position) →
      let t := claimStop .stackerFault (stackReport k .faulted
        { s with cs := { s.cs with stacker := { s.cs.stacker with faulted := true, timer := none } } })
      exec .transferTimeout s = .next { t with os := { t.os with mode := .hold, holdCause := .stackerFault } })) ∧
  (∀ (o : Order) (e : WebPos) (s : State),
    let opened : Stack := { sequence := s.cs.stackCounter, order := o.id, lanes := o.layout.lanes.length,
                            height := o.stackHeight, cuts := 1, lastEnd := e, closePending := none }
    let grown := fun (k : Option Stack) => match k with
      | none => opened
      | some k => { k with cuts := k.cuts + 1, lastEnd := e }
    let counter := fun (k : Option Stack) => if k = none then s.cs.stackCounter + 1 else s.cs.stackCounter
    (s.cs.stacker.transferring = false →
      let k : Stack := grown s.cs.stacker.current
      let t := { s with cs := { s.cs with
        stackCounter := counter s.cs.stacker.current, stacker := { s.cs.stacker with current := some k } } }
      countSheet o e s = if k.cuts = k.height then closeCurrent .height t else t) ∧
    (s.cs.stacker.transferring = true →
      let k : Stack := grown s.cs.stacker.deck
      let t := { s with cs := { s.cs with
        stackCounter := counter s.cs.stacker.deck, stacker := { s.cs.stacker with deck := some k } } }
      countSheet o e s = if k.cuts = k.height then markDeck .height t else t)) ∧
  (∀ (c : StackClose) (s : State), markDeck c s = { s with cs := { s.cs with stacker := { s.cs.stacker with
    deck := s.cs.stacker.deck.map fun d => { d with closePending := some (d.closePending.getD c) } } } }) ∧
  (∀ (c : StackClose) (k : Stack) (s : State),
    (s.cs.stacker.current = none → closeCurrent c s = s) ∧
    (s.cs.stacker.current = some k →
      let t := direct .stacker (.stackTransfer k.sequence k.lastEnd) s
      let moved := stackReport k c { t with cs := { t.cs with stacker := { t.cs.stacker with
        transferring := true, position := k.lastEnd } } }
      closeCurrent c s = { moved with cs := { moved.cs with stacker := { moved.cs.stacker with
        timer := some moved.pt.geometry.transferTimeout } } })) ∧
  (∀ (id : OrderId) (s : State), stackOrderEnd id s =
    if s.cs.stacker.transferring = true then
      (if s.cs.stacker.deck.map (·.order) = some id then markDeck .orderEnd s else s)
    else (if s.cs.stacker.current.map (·.order) = some id then closeCurrent .orderEnd s else s)) ∧
  (∀ s : State,
    let k := s.cs.stacker
    let promoted := fun (timer : Option Nat) => { s with cs := { s.cs with stacker := { k with
      timer := timer, faulted := false, current := k.deck.map fun d => { d with closePending := none }, deck := none } } }
    let after := fun (timer : Option Nat) => match k.deck.bind (·.closePending) with
      | some c => closeCurrent c (promoted timer)
      | none => { promoted timer with cs := { (promoted timer).cs with
          stacker := { (promoted timer).cs.stacker with transferring := false } } }
    let recovered := if (roleWord s .stacker).getLsbD 3 = false ∧ (roleWord s .stacker).getLsbD 0 = true then after k.timer
      else s
    (k.faulted = true → (∀ b, transferDoneChange b s = recovered) ∧ stackerFaultChange s = recovered) ∧
    (k.faulted = false → transferDoneChange false s = s ∧ stackerFaultChange s = s ∧
      transferDoneChange true s = if k.transferring = true then after none else s)) ∧
  (∀ (k : Stack) (c : StackClose) (s : State), stackReport k c s = report (.stack {
    sequence := k.sequence, order := k.order, cuts := k.cuts, sheets := k.cuts * k.lanes, height := k.height, cause := c,
    position := if c = .height ∨ c = .orderEnd then some s.cs.stacker.position else none,
    deck := s.cs.stacker.deck.map fun d => (d.order, d.cuts) }) s)

/-! ## Status words -/

/-- A STATE frame from any station but the SUPERVISOR and the PANEL is forwarded and taken at the station's entry, whose last
status word and offset become the frame's; from those two it is forwarded alone. The taking reports the change, then hands the
toggled bits that the role's table names to their block, in bit order (log entry 36): a rising where the bit becomes set, a
falling where it becomes clear. A change under the watch mask makes a CHANGE report: into the report queue where the station's
slots are empty and the queue has room, else into a free holding slot, else merged into the second, which keeps its old word,
takes the new word and line count, the bits that then differ, and the OVERWRITTEN flag. Freed queue entries take the held
reports, the longest waiting first, with the line count of that moment in their header (log entry 57). A block reads the last
status word of a role as that of the first entry in it, and with no bit set where there is none (the latter log entry 73). -/
def Obligations.StateFrameReplacesTheWord : Prop :=
  (∀ (h : FrameHeader) (w o : Word16) (i : Nat) (e : Station) (s : State), Observes h i e s →
    let f := forward (.octets (frameOctets h.target h.origin 3 h.sequence (octetsOf w ++ octetsOf o))) s
    (e.role ≠ .supervisor → e.role ≠ .panel → exec (.stateFrame h w o) s = .next (takeState i e w o f) ∧
      (takeState i e w o f).ri.stations = s.ri.stations.set i (some { e with word := w, lastOffset := o })) ∧
    ((e.role = .supervisor ∨ e.role = .panel) → exec (.stateFrame h w o) s = .next f)) ∧
  (∀ (r : Role) (s : State), ((∀ e, some e ∈ s.ri.stations → e.role ≠ r) → roleWord s r = 0) ∧
    ∀ a e b, s.ri.stations = a ++ some e :: b → e.role = r → (∀ x, some x ∈ a → x.role ≠ r) → roleWord s r = e.word) ∧
  (∀ (i : Nat) (e : Station) (w o : Word16) (s : State), takeState i e w o s =
    dispatchWord e.role e.address e.word w o.toNat (reportChange i e w
      { s with ri := { s.ri with stations := s.ri.stations.set i (some { e with word := w, lastOffset := o }) } })) ∧
  (∀ (i : Nat) (e : Station) (w : Word16) (s : State),
    let changed := (e.word ^^^ w) &&& e.watch
    let r : ChangeReport := { address := e.address, role := e.role, oldWord := e.word, newWord := w, changed := changed,
                              overwritten := false, lineCount := s.pt.lineCount }
    let slots := (s.ri.held.filter fun x => x.entry == i).length
    (changed = 0 → reportChange i e w s = s) ∧
    (changed ≠ 0 → slots = 0 → s.ri.reports.length < 16 → reportChange i e w s = report (.change r) s) ∧
    (changed ≠ 0 → ¬(slots = 0 ∧ s.ri.reports.length < 16) → slots < 2 →
      reportChange i e w s = { s with ri := { s.ri with held := s.ri.held ++ [⟨i, r⟩] } }) ∧
    (∀ a b c x y, changed ≠ 0 → s.ri.held = a ++ [x] ++ b ++ [y] ++ c → x.entry = i → y.entry = i →
      (∀ z ∈ a ++ b, z.entry ≠ i) → reportChange i e w s = { s with ri := { s.ri with held := a ++ [x] ++ b ++
        [{ y with report := { y.report with
            newWord := w, lineCount := s.pt.lineCount, changed := (y.report.oldWord ^^^ w) &&& e.watch,
            overwritten := true } }] ++ c } })) ∧
  (∀ (n : Nat) (s : State), moveHeld 0 s = s ∧ (s.ri.held = [] → moveHeld n s = s) ∧
    (16 ≤ s.ri.reports.length → moveHeld n s = s) ∧
    (∀ x t, s.ri.held = x :: t → s.ri.reports.length < 16 →
      moveHeld (n + 1) s = moveHeld n (report (.change x.report) { s with ri := { s.ri with held := t } }))) ∧
  (∀ (k address offset : Nat) (old new : Word16) (s : State),
    let bit := fun (i : Nat) (up down : State → State) (t : State) =>
      if old.getLsbD i = false ∧ new.getLsbD i = true then up t
      else if old.getLsbD i = true ∧ new.getLsbD i = false then down t else t
    let knife := fun (k : KnifeId) => bit 3 (knifeFaultRises evaluate k) (knifeFaultFalls evaluate k)
      (bit 2 (knifeLiftedRises evaluate k) id (bit 1 (knifeEngagedRises evaluate k) id
        (bit 0 (knifeReadyRises evaluate k) (knifeReadyFalls k) s)))
    dispatchWord (.stand k) address old new offset s =
      bit 3 (standFaultRises evaluate k) (standFaultFalls evaluate k) (bit 2 (pasteDoneRises evaluate k offset) id
        (bit 1 (speedMatchedRises evaluate k) (speedMatchedFalls evaluate k)
          (bit 0 (standbyReadyRises evaluate k) (standbyReadyFalls evaluate k) s))) ∧
    dispatchWord .knifeA address old new offset s = knife .a ∧ dispatchWord .knifeB address old new offset s = knife .b ∧
    dispatchWord .cutoff address old new offset s = bit 3 cutoffFaultRises id s ∧
    dispatchWord .stacker address old new offset s =
      bit 3 stackerFaultChange stackerFaultChange (bit 0 (transferDoneChange true) (transferDoneChange false) s) ∧
    dispatchWord .zone address old new offset s =
      bit 3 (zoneStationRises evaluate address) (zoneStationFalls evaluate address) s ∧
    ∀ role ∈ [Role.gate, .drive, .encoder, .supervisor, .panel], dispatchWord role address old new offset s = s)

/-! ## Zones, readings and standby -/

/-- A READING frame from a ZONE station is forwarded and matched to a placed zone by origin and channel: the match is the first
placed zone whose station address is the origin and whose channel is the frame's (the PLACE write keeps the pair unique), and
none where no placed zone has them. Unmatched, the reading is counted alone; a match sets the zone's last reading and counts, and
in RUNNING the trip levels are evaluated. -/
def Obligations.ReadingIsMatchedAndCounted : Prop :=
  (∀ (h : FrameHeader) (channel : Byte) (value : Word16) (i : Nat) (e : Station) (s : State),
    Observes h i e s → e.role = .zone →
    exec (.reading h channel value) s = .next (takeReading evaluate e.address channel.toNat value.toInt
      (forward (.octets (frameOctets h.target h.origin 2 h.sequence (channel :: octetsOf value))) s))) ∧
  (∀ (origin channel : Nat) (s : State),
    let takes := fun n => ∃ z, s.zr.zones[n]? = some z ∧ z.placed = true ∧ z.station = some origin ∧ z.channel = channel
    (∀ n, readingZone s origin channel = some n ↔ takes n ∧ ∀ k < n, ¬takes k) ∧
    (readingZone s origin channel = none ↔ ∀ n, ¬takes n)) ∧
  (∀ (origin channel : Nat) (v : Int) (s : State),
    (readingZone s origin channel = none → takeReading evaluate origin channel v s =
      { s with ts := { s.ts with unmatched := min (2 ^ 32 - 1) (s.ts.unmatched + 1) } }) ∧
    (∀ n, readingZone s origin channel = some n →
      let t := { s with ts := { s.ts with
        zones := s.ts.zones.modify n fun x => { x with lastReading := some ⟨v, s.pt.lineCount⟩ },
        readingsTaken := min (2 ^ 32 - 1) (s.ts.readingsTaken + 1) } }
      (s.me.running = false → takeReading evaluate origin channel v s = t) ∧
      (s.me.running = true → takeReading evaluate origin channel v s = evaluateReading evaluate n v t)))

/-- The rising and clearing conditions of the three trip levels (Table 8-1): LOW and HIGH are relative to the current setpoint
and have none while it is absent; CUTOUT's reading part is absolute. A reading in RUNNING sets the reading part, takes the
fallings it gives, then the risings, each in the order LOW, HIGH, CUTOUT (log entry 35); the bands are not evaluated while
standby is held, and a rising of one clears the other; CUTOUT is live while the reading part or the station fault holds. A
rising sets live and latched flag and takes WINDOW, STOP, HOLD and REPORT as its action set names them; a falling closes the
window the level holds. A zone station's fault raises CUTOUT at every placed zone of its address where it was clear, and its
falling lowers it where the reading part is clear, in zone number order (log entry 64); in CONFIGURING neither changes a flag. A
TRIP report has the fields of R165; a RISE by a station fault has no value and no threshold (the latter log entry 61). -/
def Obligations.TripLevelConditions : Prop :=
  (∀ (n : Nat) (f : ZoneTrip → ZoneTrip) (s : State), (∀ x, s.ts.zones[n]? = some x → tripOf s n = x) ∧
    modTrip n f s = { s with ts := { s.ts with zones := s.ts.zones.modify n f } }) ∧
  (∀ (α : Type) (p : PerLevel α) (l l' : Level) (x : α),
    levelOf p .low = p.low ∧ levelOf p .high = p.high ∧ levelOf p .cutout = p.cutout ∧
    levelOf (setLevel l x p) l' = if l' = l then x else levelOf p l') ∧
  (∀ (n : Nat) (c : WindowCause) (src : Source),
    zoneOwns n c src = true ↔ (c = .glueStarve ∨ c = .heatDeviation) ∧ src = .zone n) ∧
  (∀ (z : Zone) (v : Int),
    (∀ c, z.current = some c →
      (risesAt z v .low = true ↔ v < c + z.bandLow) ∧ (fallsAt z v .low = true ↔ c + z.bandLow + z.hysteresis ≤ v) ∧
      (risesAt z v .high = true ↔ c + z.bandHigh < v) ∧ (fallsAt z v .high = true ↔ v ≤ c + z.bandHigh - z.hysteresis)) ∧
    (z.current = none → risesAt z v .low = false ∧ fallsAt z v .low = false ∧ risesAt z v .high = false ∧
      fallsAt z v .high = false) ∧
    (risesAt z v .cutout = true ↔ z.cutout < v) ∧ (fallsAt z v .cutout = true ↔ v ≤ z.cutout - z.hysteresis)) ∧
  (∀ (z : Zone) (t : ZoneTrip) (v : Int),
    let part := (risesAt z v .cutout || (t.readingPart && !fallsAt z v .cutout))
    let low := t.live.low = false ∧ risesAt z v .low = true
    let high := t.live.high = false ∧ risesAt z v .high = true
    readingPartAfter z v t.readingPart = part ∧ (liveAfter z t v).cutout = (part || t.stationFault) ∧
    (t.held = true → (liveAfter z t v).low = t.live.low ∧ (liveAfter z t v).high = t.live.high) ∧
    (t.held = false →
      ((liveAfter z t v).low = true ↔ low ∨ (t.live.low = true ∧ fallsAt z v .low = false ∧ ¬high)) ∧
      ((liveAfter z t v).high = true ↔ high ∨ (t.live.high = true ∧ fallsAt z v .high = false ∧ ¬low)))) ∧
  (∀ (ev : State → State) (n : Nat) (z : Zone) (v : Int) (s : State), zoneOf s n = some z →
    let after := liveAfter z (tripOf s n) v
    let fall := fun (l : Level) (t : State) =>
      if levelOf (tripOf t n).live l = true ∧ levelOf after l = false then (lowerLevel ev n l t).1 else t
    let rise := fun (l : Level) (t : State) =>
      if levelOf (tripOf t n).live l = false ∧ levelOf after l = true then
        raiseLevel ev n l (some v) (thresholdOf z l) t else t
    let read := modTrip n (fun t => { t with readingPart := readingPartAfter z v t.readingPart }) s
    evaluateReading ev n v s = rise .cutout (rise .high (rise .low (fall .cutout (fall .high (fall .low read)))))) ∧
  (∀ (ev : State → State) (n : Nat) (l : Level) (value threshold : Option Int) (z : Zone) (s : State), zoneOf s n = some z →
    let a := match l with
      | .low => z.lowActions
      | .high => z.highActions
      | .cutout => z.cutoutActions
    let cause : WindowCause := if z.kind = .glue then .glueStarve else .heatDeviation
    let live := modTrip n (fun t => { t with live := setLevel l true t.live, latched := setLevel l true t.latched }) s
    let x := insertMark ev { kind := .window cause (.zone n) .openEnded, w := boardAt live z.offset, uncertainty := .exact 0 } live
    let ref := match x.2 with
      | .refused => none
      | .admitted id => some id
      | .merged id => some id
    let word : WindowWord := match x.2 with
      | .refused => .refused
      | .admitted id => .mark id
      | .merged id => .mark id
    let windowed := if a.window = true then modTrip n (fun t => { t with windows := setLevel l ref t.windows }) x.1 else live
    let stopped := if a.stop = true then claimStop (if l = .cutout then .tripCutout else .tripBand) windowed else windowed
    let held := if a.hold = true then { stopped with os := { stopped.os with mode := .hold, holdCause := .trip } } else stopped
    raiseLevel ev n l value threshold s =
      if a.report = true then tripReport n
        (.rise l value threshold a (if a.window = true then word else .none) a.stop a.hold) held
      else held) ∧
  (∀ (ev : State → State) (n : Nat) (l : Level) (s : State),
    let dead := modTrip n (fun t => { t with live := setLevel l false t.live, windows := setLevel l none t.windows }) s
    (levelOf (tripOf s n).windows l = none → lowerLevel ev n l s = (dead, none)) ∧
    (∀ id, levelOf (tripOf s n).windows l = some id →
      let c := closeWindow ev id (zoneOwns n) none dead
      lowerLevel ev n l s = (c.1, c.2.map fun _ => id))) ∧
  (∀ (ev : State → State) (address : Nat) (s : State),
    let zones := (placedZones s).filter fun n => decide ((zoneOf s n).bind (·.station) = some address)
    (s.me.running = false → zoneStationRises ev address s = s ∧ zoneStationFalls ev address s = s) ∧
    (s.me.running = true →
      zoneStationRises ev address s = zones.foldl (fun t n =>
        let set := modTrip n (fun x => { x with stationFault := true }) t
        if (tripOf t n).live.cutout = true then set else raiseLevel ev n .cutout none none set) s ∧
      zoneStationFalls ev address s = zones.foldl (fun t n =>
        let set := modTrip n (fun x => { x with stationFault := false }) t
        if (tripOf t n).live.cutout = true ∧ (tripOf t n).readingPart = false then (lowerLevel ev n .cutout set).1
        else set) s)) ∧
  (∀ (n : Nat) (e : TripEvent) (z : Zone) (s : State), zoneOf s n = some z → tripReport n e s = report (.trip {
    zone := n, kind := z.kind, event := e, live := (tripOf s n).live, latched := (tripOf s n).latched,
    stationFault := (tripOf s n).stationFault, lastReading := (tripOf s n).lastReading, current := z.current }) s) ∧
  (∀ (z : Zone) (l : Level), thresholdOf z l = match l with
    | .low => z.current.map (· + z.bandLow)
    | .high => z.current.map (· + z.bandHigh)
    | .cutout => some z.cutout)

/-- The expiry of a zone's running standby timer: the timer stops, the live LOW and HIGH flags fall, LOW first (log entry 35),
the standby entry is claimed, the held flag is set and STANDBY_IN is reported. A claim leaves a zone in STANDBY as it is; a
RAMPING zone's ramp ends early, its window shortened to the travel, and any zone becomes STANDBY, its return value the ramp's
target, a STEADY zone's current setpoint, or absent from IDLE, with the standby setpoint placed and current. A stopped timer
does not expire (log entry 23). A line stopped event starts the timer of every placed zone with a delay other than 0, at the
delay times 10 s; a line started event stops every timer and, zone by zone with standby held, claims the exit, clears the flag
and reports STANDBY_OUT. The exit places the return value and the zone is STEADY; with none it is STEADY under a grade and IDLE
without, and nothing is placed; a return value taken becomes absent (log entry 56); at a zone not in STANDBY nothing changes. -/
def Obligations.StandbyTimerExpiry : Prop :=
  (∀ (n : Nat) (s : State),
     ((tripOf s n).timer = none → exec (.standbyTimeout n) s = .next s) ∧
     ((tripOf s n).timer ≠ none →
       let s1 := modTrip n (fun t => { t with timer := none }) s
       let a := bandFalls evaluate n .low s1
       let b := bandFalls evaluate n .high a.1
       let s2 := modTrip n (fun t => { t with held := true }) (standbyEntry n b.1)
       exec (.standbyTimeout n) s = .next (tripReport n (.standbyIn (a.2 ++ b.2)
         (((zoneOf s2 n).map (·.standbySetpoint)).getD 0) ((zoneOf s2 n).bind (·.returnValue))) s2))) ∧
  (∀ (n : Nat) (z : Zone) (s : State), zoneOf s n = some z →
     (z.run = .standby → standbyEntry n s = s) ∧
     (z.run ≠ .standby →
       let back := match z.run with
         | .ramping => z.ramp.map (·.target)
         | .idle => none
         | _ => z.current
       let stepped := stepRamp n s
       let ended := match z.run, (zoneOf stepped n).bind (·.ramp) with
         | .ramping, some r =>
           let shortened := match r.window with
             | some id => shortenWindow id n (stepped.pt.lineCount - r.startCount) stepped
             | none => stepped
           modZone n (fun y => { y with ramp := none, run := .steady }) shortened
         | .ramping, none => stepped
         | _, _ => s
       (standbyEntry n s = modZone n (fun y => { y with current := some z.standbySetpoint })
         (placeDirective (z.station.getD 0) (.setpoint n z.channel z.standbySetpoint)
           (modZone n (fun y => { y with run := .standby, returnValue := back }) ended))) ∧
       ∃ y, zoneOf (standbyEntry n s) n = some y ∧ y.run = .standby ∧ y.current = some z.standbySetpoint ∧
         y.returnValue = back)) ∧
  (∀ (ev : State → State) (n : Nat) (l : Level) (s : State), bandFalls ev n l s =
    if levelOf (tripOf s n).live l = true then ((lowerLevel ev n l s).1, (lowerLevel ev n l s).2.toList) else (s, [])) ∧
  (∀ s : State, lineStopped s = (placedZones s).foldl (fun t n =>
    match zoneOf t n with
    | some z => if z.standbyDelay = 0 then t else modTrip n (fun x => { x with timer := some (z.standbyDelay * 10) }) t
    | none => t) s) ∧
  (∀ s : State, lineStarted s = (List.range s.ts.zones.length).foldl (fun t n =>
    if (tripOf t n).held = true then
      let back := (zoneOf t n).bind fun z => if z.run = .standby then z.returnValue else none
      tripReport n (.standbyOut back) (modTrip n (fun x => { x with held := false }) (standbyExit n t))
    else t) { s with ts := { s.ts with zones := s.ts.zones.map fun x => { x with timer := none } } }) ∧
  (∀ (n : Nat) (z : Zone) (s : State), zoneOf s n = some z →
    (z.run ≠ .standby → standbyExit n s = s) ∧
    (∀ v, z.run = .standby → z.returnValue = some v → standbyExit n s =
      modZone n (fun z => { z with run := .steady, returnValue := none }) (placeSetpoint n v s)) ∧
    (z.run = .standby → z.returnValue = none → standbyExit n s =
      modZone n (fun y => { y with run := if z.grade.isSome = true then .steady else .idle }) s))

/-- The stage values of a ramp: the start value and, towards the target, the part of the step that the shares of the stages so
far make of 1,000, rounded toward the start value. With shares that sum to 1,000 the value at the end of the last stage is the
target, and every stage value lies between the start value and the target. The zone target is the ramp's target in RAMPING, the
return value in STANDBY and the current setpoint in IDLE and STEADY; a grade's setpoint of a zone is the loaded record's, and
none at KEEP and in an empty record. An approach records the prior grade and target; KEEP
and the zone target change nothing more (an IDLE zone becomes STEADY, with no setpoint at KEEP; the other case is log entry
15); STANDBY takes the value as return value; at insertion or IDLE the setpoint is placed at once; else a ramp starts,
overtaking a running one. A start places stage 1's value and, under the profile's flag, claims the TRANSITION window; a step
places the value of the highest stage reached and ends the ramp at its total length, zone by zone in zone number order at a
tally (log entry 64); ending early steps it, and, unless the step itself ends it, shortens its window to the travel and clears
it. A retarget, a grade write in force and a withdrawal follow R146 to R148; a withdrawal with no value to return to leaves
STEADY, a STANDBY zone's return value as it was (log entry 16). A placed setpoint becomes the current setpoint; address 0 for a
zone without a station is the model's (log entry 22). -/
def Obligations.RampStaysBetweenStartAndTarget : Prop :=
  (∀ (r : Ramp) (k : Nat),
    let shares : Nat := ((r.stages.take k).map (·.share)).sum
    stageValue r k = if r.start ≤ r.target then r.start + (r.target - r.start) * shares / 1000
      else r.start - (r.start - r.target) * shares / 1000) ∧
  (∀ (r : Ramp), (r.stages.map (·.share)).sum = 1000 →
    stageValue r r.stages.length = r.target ∧ stageValue r 0 = r.start ∧
    ∀ k, min r.start r.target ≤ stageValue r k ∧ stageValue r k ≤ max r.start r.target) ∧
  (∀ (n : Nat) (f : Zone → Zone) (s : State), zoneOf s n = s.zr.zones[n]? ∧
    modZone n f s = { s with zr := { s.zr with zones := s.zr.zones.modify n f } }) ∧
  (∀ z : Zone, (∀ r, z.run = .ramping → z.ramp = some r → zoneTarget z = some r.target) ∧
    (z.run = .ramping → z.ramp = none → zoneTarget z = none) ∧ (z.run = .standby → zoneTarget z = z.returnValue) ∧
    (z.run = .idle ∨ z.run = .steady → zoneTarget z = z.current)) ∧
  (∀ (g n : Nat) (v : Int) (s : State), gradeSetpoint s g n = some v ↔
    ∃ r, s.zr.grades[g]? = some (some r) ∧ r.setpoints[n]? = some (some v)) ∧
  (∀ (n : Nat) (v : Int) (z : Zone) (s : State), zoneOf s n = some z → placeSetpoint n v s =
    modZone n (fun z => { z with current := some v }) (placeDirective (z.station.getD 0) (.setpoint n z.channel v) s)) ∧
  (∀ (ev : State → State) (n : Nat) (id : MarkId) (order : OrderId) (flag : Bool) (s : State),
    (orderOf s order = none → zoneApproach ev n id order flag s = s) ∧
    (∀ o z, orderOf s order = some o → zoneOf s n = some z →
      let t := modZone n (fun z => { z with
        priorGrade := z.grade, priorTarget := zoneTarget z, lastApproach := some id, grade := some o.grade }) s
      let run := fun (x : ZoneRun) (t : State) => modZone n (fun z => { z with run := x }) t
      (gradeSetpoint s o.grade n = none → zoneApproach ev n id order flag s =
        if z.run = .idle then modZone n (fun z => { z with run := .steady, current := none }) t else t) ∧
      (∀ v, gradeSetpoint s o.grade n = some v → zoneApproach ev n id order flag s =
        if zoneTarget z = some v then (if z.run = .idle then run .steady t else t)
        else if z.run = .standby then modZone n (fun z => { z with returnValue := some v }) t
        else if flag = true ∨ z.run = .idle then run .steady (placeSetpoint n v (endRampEarly n t))
        else
          let ended := endRampEarly n t
          if (zoneOf ended n).bind (·.current) = some v then ended else startRamp ev n v (some id) ended))) ∧
  (∀ (ev : State → State) (n : Nat) (t : Int) (boundary : Option MarkId) (z : Zone) (s : State), zoneOf s n = some z →
    (z.current = none → startRamp ev n t boundary s =
      modZone n (fun z => { z with run := .steady }) (placeSetpoint n t s)) ∧
    (∀ a, z.current = some a →
      let p := s.zr.profiles.getD z.profile powerOnProfile
      let r : Ramp := { start := a, target := t, startCount := s.pt.lineCount, stages := p.stages,
                        markTransition := p.markTransition, stageIndex := 1, boundary := boundary, window := none }
      let begun := placeSetpoint n (stageValue r 1) (modZone n (fun z => { z with run := .ramping, ramp := some r }) s)
      let x := insertMark ev
        { kind := .window .transition (.zone n) (.closed (p.stages.map (·.length)).sum), w := boardAt begun z.offset,
          uncertainty := .exact 0 } begun
      startRamp ev n t boundary s =
        if p.markTransition = true then
          match x.2 with
          | .admitted id => modZone n (fun z => { z with ramp := z.ramp.map fun r => { r with window := some id } }) x.1
          | _ => x.1
        else begun)) ∧
  (∀ (n : Nat) (s : State),
    ((zoneOf s n).bind (·.ramp) = none → stepRamp n s = s ∧ endRampEarly n s = s) ∧
    (∀ r, (zoneOf s n).bind (·.ramp) = some r →
      let travel := s.pt.lineCount - r.startCount
      let begins := fun (k : Nat) => ((r.stages.take k).map (·.length)).sum
      let k := ((List.range r.stages.length).filter fun i => decide (begins i ≤ travel)).length
      let stepped := if r.stageIndex < k then
          modZone n (fun z => { z with ramp := some { r with stageIndex := k } }) (placeSetpoint n (stageValue r k) s)
        else s
      stepRamp n s = if begins r.stages.length ≤ travel then modZone n (fun z => { z with ramp := none, run := .steady }) stepped
        else stepped) ∧
    ((zoneOf (stepRamp n s) n).bind (·.ramp) = none → endRampEarly n s = stepRamp n s) ∧
    (∀ r, (zoneOf (stepRamp n s) n).bind (·.ramp) = some r → endRampEarly n s =
      modZone n (fun z => { z with ramp := none, run := .steady }) (match r.window with
        | some id => shortenWindow id n ((stepRamp n s).pt.lineCount - r.startCount) (stepRamp n s)
        | none => stepRamp n s))) ∧
  (∀ s : State, zonesNewCount s = (List.range s.zr.zones.length).foldl (fun t n => stepRamp n t) s) ∧
  (∀ (ev : State → State) (n : Nat) (v : Int) (z : Zone) (s : State), zoneOf s n = some z → retarget ev n v s =
    if zoneTarget z = some v then s
    else match z.run with
      | .standby => modZone n (fun z => { z with returnValue := some v }) s
      | .idle => s
      | .steady => startRamp ev n v none s
      | .ramping =>
        if (zoneOf (endRampEarly n s) n).bind (·.current) = some v then endRampEarly n s
        else startRamp ev n v none (endRampEarly n s)) ∧
  (∀ (ev : State → State) (g : Nat) (s : State), applyGrade ev g s = (List.range s.zr.zones.length).foldl (fun t n =>
    if (zoneOf t n).bind (·.grade) = some g then
      match gradeSetpoint t g n with
      | some v => retarget ev n v t
      | none => t
    else t) s) ∧
  (∀ (ev : State → State) (id : MarkId) (n : Nat) (z : Zone) (s : State), zoneOf s n = some z →
    let back := match z.priorGrade.bind fun g => gradeSetpoint s g n with
      | some v => some v
      | none => z.priorTarget
    let t := modZone n (fun z => { z with grade := z.priorGrade }) s
    let turned := match back with
      | some v => retarget ev n v t
      | none => modZone n (fun z => { z with run := .steady }) (endRampEarly n t)
    (z.lastApproach ≠ some id → withdrawZone ev id n s = s) ∧
    (z.lastApproach = some id → withdrawZone ev id n s =
      modZone n (fun z => { z with lastApproach := none, priorGrade := none, priorTarget := none }) turned))

/-- LATCH_CLEAR: a zone outside 0-15 or a foreign level is FIELD_RANGE, an unplaced zone NOT_FOUND; each named latched flag is
cleared where its live flag is clear, and the request is ACCEPTED when no named flag stayed set, else STILL_ACTIVE with the
flags that did. -/
def Obligations.LatchClearClearsDeadLatches : Prop :=
  ∀ (h : ReqHeader) (src : MgmtSource) (n : Nat) (ls : LevelSet) (s : State), Reaches h src s →
    ((16 ≤ n ∨ ls.foreign = true) → exec (.latchClear h (.fields (n, ls))) s =
      .next (answered h src 16 (.refused .parameter .fieldRange .none) s)) ∧
    (n < 16 → ls.foreign = false → (∀ z, zoneOf s n = some z → z.placed = false) →
      exec (.latchClear h (.fields (n, ls))) s = .next (answered h src 16 (.refused .notFound .none .none) s)) ∧
    (∀ z, n < 16 → ls.foreign = false → zoneOf s n = some z → z.placed = true →
      let x := tripOf s n
      let left : PerLevel Bool := ⟨ls.low && x.latched.low && x.live.low, ls.high && x.latched.high && x.live.high,
        ls.cutout && x.latched.cutout && x.live.cutout⟩
      exec (.latchClear h (.fields (n, ls))) s = .next (answered h src 16
        (if left.low || left.high || left.cutout then .refused .stillActive .none (.levels left.low left.high left.cutout)
         else .accepted .none)
        (modTrip n (fun t => { t with latched :=
          ⟨t.latched.low && (!ls.low || t.live.low), t.latched.high && (!ls.high || t.live.high),
           t.latched.cutout && (!ls.cutout || t.live.cutout)⟩ }) s)))

/-! ## Rolls and splices -/

/-- One charge of a stand (R114): the paper drawn is travel × takeup plus the carry, whole thousands of it are taken from the
active roll down to 0, and the rest is carried; an EMPTY active arm is not charged. After a charge WEB_OUT is tested, then the
run-out trigger or pull, then the conditions of a PENDING splice, the arm point and the paste point; a tally charges every stand
in stand number order (log entry 64), and one with an EMPTY active arm is examined alone. WEB_OUT (R115) ends a splice in
progress as an abort does, empties the arm, claims the stop holder, makes the splice FAULT and reports it; it is not tested in
PASTING. At or below the threshold (R117, R126) an IDLE splice becomes PENDING with kind RUN_OUT and target now, and an unpulled
PLANNED one before PASTING is pulled, its target fixed at once where it is not PENDING. The order of the evaluations and the
kept fields of a FAULT splice are the model's (log entries 6 and 18). -/
def Obligations.ChargeAccountsForThePaper : Prop :=
  (∀ (travel : Nat) (r : Stand),
    (r.active = none → chargeRoll travel r = r) ∧
    (∀ roll, r.active = some roll →
      ∃ whole carry, whole * 1000 + carry = travel * r.takeup + r.carry ∧ carry ≤ 999 ∧
        chargeRoll travel r = { r with active := some { roll with remaining := roll.remaining - whole }, carry := carry })) ∧
  (∀ (ev : State → State) (travel k : Nat) (s : State), chargeStand ev travel k s =
    examinePastePoint ev k (examineArmPoint ev k (examinePending ev k
      (examineRunOut ev k (examineWebOut ev k (modStand k (chargeRoll travel) s)))))) ∧
  (∀ (ev : State → State) (travel : Nat) (s : State),
    let stands := (List.range s.sc.stands.length).map (· + 1)
    let feeds := fun (t : State) (k : Nat) => ((standOf t k).bind (·.active)).isSome = true
    chargeGap ev travel s = stands.foldl (fun t k => if feeds t k then chargeStand ev travel k t else t) s ∧
    splicesNewCount ev travel s = stands.foldl (fun t k =>
      if feeds t k then chargeStand ev travel k t
      else examinePastePoint ev k (examineArmPoint ev k (examinePending ev k t))) s) ∧
  (∀ (ev : State → State) (k : Nat) (r : Stand) (s : State), standOf s k = some r →
    let ends := r.splice.state ≠ .idle ∧ r.splice.state ≠ .fault
    let braked := if r.splice.state = .accelerating ∨ r.splice.state = .matched then directStand k .abort s else s
    let ended := if ends then openMismatch ev k (removeSlow k braked) else s
    let stopped := claimStop .webOut (modStand k (fun r => { r with active := none, carry := 0 }) ended)
    let t := spliceReport k r .webOut none none none
      (modSplice k (fun p => { p with state := .fault, accelTimer := none, pasteTimer := none }) stopped)
    webOut ev k s = (if r.splice.state = .fault then t else ev t) ∧
    examineWebOut ev k s =
      if (∃ roll, r.active = some roll ∧ roll.remaining = 0) ∧ r.splice.state ≠ .pasting then webOut ev k s else s) ∧
  (∀ (ev : State → State) (k : Nat) (r : Stand) (s : State), standOf s k = some r →
    let low := ∃ roll, r.active = some roll ∧ roll.remaining ≤ r.runOut
    let pulls := r.splice.kind = some .planned ∧ r.splice.pulled = false ∧
      (r.splice.state = .pending ∨ r.splice.state = .armed ∨ r.splice.state = .accelerating ∨ r.splice.state = .matched)
    (¬low → examineRunOut ev k s = s) ∧
    (low → r.splice.state = .idle → examineRunOut ev k s = examinePending ev k (ev (modSplice k (fun p => { p with
      state := .pending, kind := some .runOut, target := some .now, boundaryW := none, paper := none, width := none,
      pulled := false }) s))) ∧
    (low → pulls → examineRunOut ev k s = modSplice k (fun p => { p with
      pulled := true,
      target := some (if r.splice.state = .pending then .now else .at (boardAt s r.effOffset)) }) s) ∧
    (low → r.splice.state ≠ .idle → ¬pulls → examineRunOut ev k s = s))

/-- The expiry of a stand's accel or paste timer: a stopped timer does not expire (log entry 23); with a swap owed the paste
timer's expiry ends the wait and is reported; otherwise ABORT is placed, the stand leaves the slow holders, a PLANNED splice
opens its mismatch window, the splice is FAULT and reported, a paste on an ended roll is followed by WEB_OUT, and an evaluation
follows. The window before the state change is log entry 7, the fields a FAULT splice keeps log entry 18, and what the WEB_OUT
report then says of it log entry 32. A stand fault does the same, with no ABORT in PENDING and ARMED; its falling makes a FAULT
splice IDLE. Paste-done in PASTING completes the splice in R124's order: timer, joint (referred to while it is in the map),
mismatch window, outcome and window of R125, arm swap, slow holder, IDLE, report, notices; with a swap owed the arms are swapped
alone; else it is UNEXPECTED. An arm that held no roll is reported with roll id 0 and butt length 0 (log entry 33). A position
or length out of range is free (log entries 4 and 34); the evaluations are made at their notices (log entry 6). -/
def Obligations.SpliceTimerExpiry : Prop :=
  (∀ (k : Nat) (s : State),
    (standOf s k = none → exec (.accelTimeout k) s = .next s ∧ exec (.pasteTimeout k) s = .next s) ∧
    (∀ r, standOf s k = some r →
      let ended := fun (f : SpliceFault) =>
        spliceReport k r .faulted (some f) none none
          (modSplice k (fun p => { p with state := .fault, accelTimer := none, pasteTimer := none })
            (openMismatch evaluate k (removeSlow k (directStand k .abort s))))
      let after := fun (f : SpliceFault) =>
        if r.splice.state = .pasting ∧ (∃ x, r.active = some x ∧ x.remaining = 0) then webOut evaluate k (ended f)
        else ended f
      (r.splice.accelTimer = none → exec (.accelTimeout k) s = .next s) ∧
      (r.splice.accelTimer ≠ none → r.splice.state ≠ .pasting →
        exec (.accelTimeout k) s = .next (evaluate (ended .accelTimer))) ∧
      (r.splice.pasteTimer = none → exec (.pasteTimeout k) s = .next s) ∧
      (r.splice.pasteTimer ≠ none → r.splice.swapOwed = true → exec (.pasteTimeout k) s =
        .next (spliceReport k r .faulted (some .pasteTimer) none none
          (modSplice k (fun p => { p with swapOwed := false, pasteTimer := none }) s))) ∧
      (r.splice.pasteTimer ≠ none → r.splice.swapOwed = false → ∀ t, after .pasteTimer = t →
        exec (.pasteTimeout k) s = .next (evaluate t)))) ∧
  (∀ (ev : State → State) (k : Nat) (r : Stand) (s : State), standOf s k = some r →
    let ended := fun (t : State) => spliceReport k r .faulted (some .stand) none none
      (modSplice k (fun p => { p with state := .fault, accelTimer := none, pasteTimer := none })
        (openMismatch ev k (removeSlow k t)))
    ((r.splice.state = .idle ∨ r.splice.state = .fault) → standFaultRises ev k s = s) ∧
    ((r.splice.state = .pending ∨ r.splice.state = .armed) → standFaultRises ev k s = ev (ended s)) ∧
    ((r.splice.state = .accelerating ∨ r.splice.state = .matched) →
      standFaultRises ev k s = ev (ended (directStand k .abort s))) ∧
    (r.splice.state = .pasting → standFaultRises ev k s =
      if ∃ x, r.active = some x ∧ x.remaining = 0 then ev (webOut ev k (ended (directStand k .abort s)))
      else ev (ended (directStand k .abort s))) ∧
    standFaultFalls ev k s = (if r.splice.state = .fault then ev (modSplice k (fun _ => idleSplice) s) else s)) ∧
  (∀ (ev : State → State) (k f : Nat) (r : Stand) (s : State), standOf s k = some r →
    let swapped := fun (x : Stand) => { x with
      active := x.standby.roll.map fun roll => { roll with remaining := roll.length }, carry := 0, standby := .empty }
    let rolls := fun (joint : Option (WebPos × MarkId)) (word : WindowWord) => (some
      { joint := joint, butt := (r.active.map (·.remaining)).getD 0, oldRoll := (r.active.map (·.rollId)).getD 0,
        newRoll := (r.standby.roll.map (·.rollId)).getD 0, window := word } : Option SpliceCompletion)
    (r.splice.state = .pasting →
      let w := webPos (lineCount s + f - r.effOffset)
      let joint := insertMark ev { kind := .joint k, w := w, uncertainty := .exact 0 }
        (modSplice k (fun p => { p with pasteTimer := none }) s)
      ∀ id, joint.2 = .admitted id →
      let referred := if (markOf joint.1 id).isSome = true then
          modStand k (fun x => { x with jointRef := some id }) joint.1 else joint.1
      let x := plannedOutcome ev k r.splice w (closeMismatch ev k w referred)
      let t := spliceReport k r x.2.1 none none (rolls (some (w, id)) x.2.2)
        (modSplice k (fun _ => idleSplice) (removeSlow k (modStand k swapped x.1)))
      pasteDoneRises ev k f s = ev (handEvent (fun t => t == .spliceDone k) t)) ∧
    (r.splice.state ≠ .pasting → r.splice.swapOwed = true → pasteDoneRises ev k f s =
      ev (spliceReport k r .abandoned none none (rolls none .none) (modStand k (fun x =>
        { swapped x with splice := { x.splice with swapOwed := false, pasteTimer := none } }) s))) ∧
    (r.splice.state ≠ .pasting → r.splice.swapOwed = false →
      pasteDoneRises ev k f s = spliceReport k r .unexpected none (some f) none s)) ∧
  (∀ (ev : State → State) (k : Nat) (p : Splice) (w : WebPos) (s : State),
    (p.kind ≠ some .planned → plannedOutcome ev k p w s = (s, .done, .none)) ∧
    (p.kind = some .planned → p.boundaryW = some w → plannedOutcome ev k p w s = (s, .onTime, .none)) ∧
    (∀ b, p.kind = some .planned → p.boundaryW = some b → w ≠ b → (w - b).natAbs ≤ 16777215 →
      let unc : ClaimUncertainty := match s.sm.marks.find? (fun m => m.isBoundary && m.w == b) with
        | some m => .like m.id
        | none => .exact 0
      let x := insertMark ev { kind := .window .gradeMismatch (.stand k) (.closed (w - b).natAbs), w := min w b,
                               uncertainty := unc } s
      plannedOutcome ev k p w s = (x.1, if b < w then .late else .early, match x.2 with
        | .refused => .refused
        | .admitted id => .mark id
        | .merged id => .mark id)))

/-- ROLL_PREPARE: the first refusal of R112 that applies, the active arm filled in CONFIGURING with carry 0, the EMPTY standby
arm filled as the stand's word shows (log entry 29). The ranges are PAPER_RANGE, WIDTH_RANGE and FIELD_RANGE, in this order, an
arm outside the two among the last (log entry 31); a roll id held by any arm of any stand but the one being written is
DUPLICATE. ROLL_WITHDRAW empties the standby arm where the stand does not work with its roll (R113). -/
def Obligations.RollsArePreparedAndWithdrawn : Prop :=
  (∀ (h : ReqHeader) (src : MgmtSource) (k : Nat) (v : RollFields) (s : State), Reaches h src s →
    (∀ arm, standOf s k = none → exec (.rollPrepare h (.fields (k, arm, v))) s =
        .next (answered h src 12 (.refused .notFound .none .none) s) ∧
      exec (.rollWithdraw h (.fields k)) s = .next (answered h src 13 (.refused .notFound .none .none) s)) ∧
    (∀ r, standOf s k = some r →
      (∀ arm d, rollCheck arm v = some d → exec (.rollPrepare h (.fields (k, arm, v))) s =
        .next (answered h src 12 (.refused .parameter d .none) s)) ∧
      (∀ arm, rollCheck arm v = none → rollIdHeld s k arm v.rollId = true → exec (.rollPrepare h (.fields (k, arm, v))) s =
        .next (answered h src 12 (.refused .duplicate .none .none) s)) ∧
      (rollCheck (.named .active) v = none → rollIdHeld s k (.named .active) v.rollId = false → s.me.running = true →
        exec (.rollPrepare h (.fields (k, .named .active, v))) s =
          .next (answered h src 12 (.refused .wrongState .none .none) s)) ∧
      (rollCheck (.named .active) v = none → rollIdHeld s k (.named .active) v.rollId = false → s.me.running = false →
        exec (.rollPrepare h (.fields (k, .named .active, v))) s = .next (answered h src 12 (.accepted .none)
          (modStand k (fun r => { r with active := some ⟨v.rollId, v.paper, v.width, v.length, v.length⟩, carry := 0 }) s))) ∧
      (rollCheck (.named .standby) v = none → rollIdHeld s k (.named .standby) v.rollId = false → r.standby ≠ .empty →
        exec (.rollPrepare h (.fields (k, .named .standby, v))) s =
          .next (answered h src 12 (.refused .inUse .none .none) s)) ∧
      (rollCheck (.named .standby) v = none → rollIdHeld s k (.named .standby) v.rollId = false → r.standby = .empty →
        let roll : Roll := ⟨v.rollId, v.paper, v.width, v.length, v.length⟩
        let arm : StandbyArm := if (roleWord s (.stand k)).getLsbD 0 then .ready roll else .prepared roll
        let t := evaluate (modStand k (fun r => { r with standby := arm }) s)
        exec (.rollPrepare h (.fields (k, .named .standby, v))) s = .next (answered h src 12 (.accepted .none)
          (if t.me.running then examinePending evaluate k t else t))) ∧
      (r.standby = .empty → exec (.rollWithdraw h (.fields k)) s =
        .next (answered h src 13 (.refused .notFound .none .none) s)) ∧
      (r.standby ≠ .empty → r.splice.swapOwed = false →
        (r.splice.state = .idle ∨ r.splice.state = .pending ∨ r.splice.state = .fault) →
        exec (.rollWithdraw h (.fields k)) s = .next (answered h src 13 (.accepted .none)
          (evaluate (modStand k (fun r => { r with standby := .empty }) s)))) ∧
      (r.standby ≠ .empty → (r.splice.swapOwed = true ∨ r.splice.state = .armed ∨ r.splice.state = .accelerating ∨
          r.splice.state = .matched ∨ r.splice.state = .pasting) →
        exec (.rollWithdraw h (.fields k)) s = .next (answered h src 13 (.refused .inUse .none .none) s)))) ∧
  (∀ (arm : Coded Arm) (v : RollFields), rollCheck arm v = ([
    if 1 ≤ v.paper ∧ v.paper ≤ 4095 then none else some .paperRange,
    if 600 ≤ v.width ∧ v.width ≤ 2800 then none else some .widthRange,
    if 1 ≤ v.rollId ∧ v.rollId ≤ 2 ^ 32 - 1 ∧ 1 ≤ v.length ∧ v.length ≤ 20000000 ∧ (arm = .named .active ∨ arm = .named .standby)
      then none else some .fieldRange] : List (Option Detail)).findSome? id) ∧
  (∀ (k : Nat) (arm : Coded Arm) (id : Nat) (s : State), rollIdHeld s k arm id = true ↔
    ∃ j r, standOf s j = some r ∧
      ((∃ x, r.active = some x ∧ x.rollId = id ∧ ¬(j = k ∧ arm = .named .active)) ∨
        (∃ x, r.standby.roll = some x ∧ x.rollId = id ∧ ¬(j = k ∧ arm = .named .standby))))

/-- SPLICE_NOW: WRONG_STATE in CONFIGURING, NOT_FOUND for no such stand, IN_USE for a splice that is not IDLE; otherwise the
splice is PENDING with kind MANUAL and target now, noticed at the Order Sequencer at once (log entry 6) and examined. A planned
claim makes an IDLE splice PENDING with kind PLANNED, target and boundary w_b, paper and width, and a busy one answers without
a change. A PENDING splice with a READY standby arm, no joint in the map and, when PLANNED, the required paper and width
becomes ARMED, with a now target fixed at the stand's board. The board at a point is the line count less its offset (free out
of range, log entry 4). A stand's directive goes to its station address (0 while it has none, log entry 22). An ARMED one past
its arm point makes the stand a slow holder, and at a speed within its limit places ARM, starts the accel timer and
accelerates; the speed is the Position Tracker's of that moment (log entry 43). A MATCHED one past its paste point places
PASTE, starts the paste timer and is PASTING. -/
def Obligations.SpliceNowMakesPending : Prop :=
  (∀ x : Int, (-(2 ^ 47) ≤ x → x < 2 ^ 47 → webPos x = x) ∧
    ((x < -(2 ^ 47) ∨ 2 ^ 47 ≤ x) → webPos x = (Config.webBeyond x).toInt)) ∧
  (∀ (s : State) (offset : Nat),
    lineCount s = s.pt.lineCount ∧ boardAt s offset = webPos ((s.pt.lineCount : Int) - (offset : Int))) ∧
  (∀ (k : Nat) (f : Stand → Stand) (g : Splice → Splice) (s : State),
    standOf s 0 = none ∧ standOf s (k + 1) = s.sc.stands[k]? ∧
    modStand (k + 1) f s = { s with sc := { s.sc with stands := s.sc.stands.modify k f } } ∧
    modSplice k g s = modStand k (fun r => { r with splice := g r.splice }) s) ∧
  (∀ (k : Nat) (r : Stand) (d : Directive) (s : State), standOf s k = some r →
    directStand k d s = placeDirective (r.address.getD 0) d s) ∧
  (∀ (h : ReqHeader) (src : MgmtSource) (k : Nat) (s : State), Reaches h src s →
    (s.me.running = false → exec (.spliceNow h (.fields k)) s =
      .next (answered h src 14 (.refused .wrongState .none .none) s)) ∧
    (s.me.running = true → standOf s k = none → exec (.spliceNow h (.fields k)) s =
      .next (answered h src 14 (.refused .notFound .none .none) s)) ∧
    (∀ r, s.me.running = true → standOf s k = some r → r.splice.state ≠ .idle → exec (.spliceNow h (.fields k)) s =
      .next (answered h src 14 (.refused .inUse .none .none) s)) ∧
    (∀ r, s.me.running = true → standOf s k = some r → r.splice.state = .idle → exec (.spliceNow h (.fields k)) s =
      .next (answered h src 14 (.accepted .none) (examinePending evaluate k (evaluate (modSplice k
        (fun p => { p with state := .pending, kind := some .manual, target := some .now, boundaryW := none, paper := none,
                           width := none, pulled := false }) s)))))) ∧
  (∀ (ev : State → State) (k : Nat) (r : Stand) (w : WebPos) (paper width : Nat) (s : State), standOf s k = some r →
    (r.splice.state ≠ .idle → plannedClaim ev k w paper width s = s) ∧
    (r.splice.state = .idle → plannedClaim ev k w paper width s = examinePending ev k (ev (modSplice k (fun p => { p with
      state := .pending, kind := some .planned, target := some (.at w), boundaryW := some w, paper := some paper,
      width := some width, pulled := false }) s)))) ∧
  (∀ (ev : State → State) (k : Nat) (r : Stand) (s : State), standOf s k = some r →
    let fits := r.splice.kind = some .planned → ∃ roll, r.standby = .ready roll ∧ r.splice.paper = some roll.paper ∧
      r.splice.width.getD 0 ≤ roll.width
    let arms := r.splice.state = .pending ∧ (∃ roll, r.standby = .ready roll) ∧ r.jointRef = none ∧ fits
    (arms → examinePending ev k s = examineArmPoint ev k (ev (modSplice k (fun p => { p with
      state := .armed, target := match p.target with
        | some .now => some (.at (boardAt s r.effOffset))
        | t => t }) s))) ∧
    (¬arms → examinePending ev k s = s)) ∧
  (∀ (ev : State → State) (k : Nat) (r : Stand) (s : State), standOf s k = some r →
    let roll := (r.standby.roll.map (·.rollId)).getD 0
    let reached := fun (lead : Nat) => r.splice.target = some .now ∨
      ∃ w, r.splice.target = some (.at w) ∧ w + r.effOffset - lead ≤ lineCount s
    let slowed := placeSlow k r.maxSpeed s
    (¬(r.splice.state = .armed ∧ reached r.spliceLead) → examineArmPoint ev k s = s) ∧
    (r.splice.state = .armed → reached r.spliceLead → examineArmPoint ev k s =
      if slowed.pt.speed ≤ r.maxSpeed then
        ev (modSplice k (fun p => { p with state := .accelerating, accelTimer := some r.accelTimeout })
          (directStand k (.arm roll) slowed))
      else slowed) ∧
    (¬(r.splice.state = .matched ∧ reached 0) → examinePastePoint ev k s = s) ∧
    (r.splice.state = .matched → reached 0 → examinePastePoint ev k s =
      ev (modSplice k (fun p => { p with state := .pasting, pasteTimer := some r.pasteTimeout })
        (directStand k (.paste roll) s))))

/-- SPLICE_ABORT by the splice's state: NOT_FOUND for no such stand and for IDLE, TOO_LATE in PASTING, FAULT made IDLE;
otherwise ABORT is placed where the stand is accelerating or matched, the stand leaves the slow holders, a PLANNED splice opens
its mismatch window, the splice is IDLE and reported ABORTED, and an evaluation follows. The order of these is the model's (log
entries 6 and 7). A mismatch window is claimed open at w_b where the stand holds none, with the boundary's uncertainty, and is
closed at a joint's w. The cancellation of a withdrawal ends an unpulled splice for that boundary as CANCELLED, turns a pulled
one into RUN_OUT (in PASTING as well, log entry 40; its pulled stays true, log entry 70), and closes a mismatch window at w_b.
Speed-matched moves ACCELERATING to MATCHED and back with the accel timer; standby-ready moves the arm between PREPARED and
READY, and its falling returns an ARMED splice to PENDING. An IDLE splice has no field set and both timers stopped. A SPLICE
report has the fields of R133; a splice IDLE or in FAULT is none in progress, and gives no kind, target or boundary (log entry
32). -/
def Obligations.SpliceAbortByState : Prop :=
  (∀ (h : ReqHeader) (src : MgmtSource) (k : Nat) (s : State), Reaches h src s →
    (standOf s k = none → exec (.spliceAbort h (.fields k)) s =
      .next (answered h src 15 (.refused .notFound .none .none) s)) ∧
    (∀ r, standOf s k = some r →
      (r.splice.state = .idle → exec (.spliceAbort h (.fields k)) s =
        .next (answered h src 15 (.refused .notFound .none .none) s)) ∧
      (r.splice.state = .pasting → exec (.spliceAbort h (.fields k)) s =
        .next (answered h src 15 (.refused .tooLate .none .none) s)) ∧
      (r.splice.state = .fault → exec (.spliceAbort h (.fields k)) s = .next (answered h src 15 (.accepted .none)
        (evaluate (modSplice k (fun _ => idleSplice) s)))) ∧
      ((r.splice.state = .pending ∨ r.splice.state = .armed) → exec (.spliceAbort h (.fields k)) s =
        .next (answered h src 15 (.accepted .none) (evaluate (spliceReport k r .aborted none none none
          (modSplice k (fun _ => idleSplice) (openMismatch evaluate k (removeSlow k s))))))) ∧
      ((r.splice.state = .accelerating ∨ r.splice.state = .matched) → exec (.spliceAbort h (.fields k)) s =
        .next (answered h src 15 (.accepted .none) (evaluate (spliceReport k r .aborted none none none
          (modSplice k (fun _ => idleSplice) (openMismatch evaluate k (removeSlow k (directStand k .abort s)))))))))) ∧
  (∀ (ev : State → State) (k : Nat) (r : Stand) (s : State), standOf s k = some r →
    (∀ w, r.splice.kind = some .planned → r.mismatch = none → r.splice.boundaryW = some w →
      let unc : ClaimUncertainty := match s.sm.marks.find? (fun m => m.isBoundary && m.w == w) with
        | some m => .like m.id
        | none => .exact 0
      let x := insertMark ev { kind := .window .gradeMismatch (.stand k) .openEnded, w := w, uncertainty := unc } s
      openMismatch ev k s = match x.2 with
        | .admitted id => modStand k (fun r => { r with mismatch := some ⟨id, w⟩ }) x.1
        | _ => x.1) ∧
    ((r.splice.kind ≠ some .planned ∨ r.mismatch ≠ none) → openMismatch ev k s = s) ∧
    (∀ far, (r.mismatch = none → closeMismatch ev k far s = s) ∧
      (∀ b, r.mismatch = some b → closeMismatch ev k far s = modStand k (fun r => { r with mismatch := none })
        (closeWindow ev b.mark (fun c src => c == .gradeMismatch && src == .stand k) (some far) s).1))) ∧
  (∀ (ev : State → State) (k : Nat) (r : Stand) (w : WebPos) (s : State), standOf s k = some r →
    let mine := r.splice.kind = some .planned ∧ r.splice.boundaryW = some w ∧ r.splice.state ≠ .idle ∧
      r.splice.state ≠ .fault
    let closed := fun (t : State) => if r.mismatch.map (·.w) = some w then closeMismatch ev k w t else t
    let braked := if r.splice.state = .accelerating ∨ r.splice.state = .matched then directStand k .abort s else s
    (¬mine → cancelPlanned ev w k s = closed s) ∧
    (mine → r.splice.pulled = false → r.splice.state = .pasting → cancelPlanned ev w k s = closed s) ∧
    (mine → r.splice.pulled = true → cancelPlanned ev w k s = closed (modSplice k
      (fun p => { p with kind := some .runOut, boundaryW := none, paper := none, width := none }) s)) ∧
    (mine → r.splice.pulled = false → r.splice.state ≠ .pasting → cancelPlanned ev w k s =
      closed (ev (spliceReport k r .cancelled none none none
        (modSplice k (fun _ => idleSplice) (removeSlow k braked)))))) ∧
  (∀ (ev : State → State) (k : Nat) (r : Stand) (s : State), standOf s k = some r →
    speedMatchedRises ev k s = (if r.splice.state = .accelerating then examinePastePoint ev k
        (ev (modSplice k (fun p => { p with state := .matched, accelTimer := none }) s)) else s) ∧
    speedMatchedFalls ev k s = (if r.splice.state = .matched then
        ev (modSplice k (fun p => { p with state := .accelerating, accelTimer := some r.accelTimeout }) s) else s) ∧
    standbyReadyRises ev k s = (match r.standby with
      | .prepared roll => examinePending ev k (ev (modStand k (fun r => { r with standby := .ready roll }) s))
      | _ => s) ∧
    standbyReadyFalls ev k s = (match r.standby with
      | .ready roll =>
        let t := ev (modStand k (fun r => { r with standby := .prepared roll }) s)
        if r.splice.state = .armed then
          ev (removeSlow k (modSplice k (fun p => { p with
            state := .pending,
            target := if p.kind = some .planned ∧ p.pulled = false then p.target else some .now }) t))
        else t
      | _ => s)) ∧
  (∀ (k : Nat) (r : Stand) (o : SpliceOutcome) (f : Option SpliceFault) (offset : Option Nat) (c : Option SpliceCompletion)
     (s : State),
    let ended := r.splice.state = .idle ∨ r.splice.state = .fault
    spliceReport k r o f offset c s = report (.splice {
      stand := k, role := r.role, outcome := o, before := r.splice.state, fault := f, offset := offset, completion := c,
      kind := if ended then none else r.splice.kind, target := if ended then none else r.splice.target,
      boundaryW := if ended then none else r.splice.boundaryW, pulled := if ended then false else r.splice.pulled }) s) ∧
  idleSplice = { state := .idle, kind := none, target := none, boundaryW := none, paper := none, width := none,
                 pulled := false, accelTimer := none, pasteTimer := none, swapOwed := false }

/-! ## Requests -/

/-- A request consumed by the part is discarded and counted where its source's answer slot is full, and then changes nothing
else; otherwise exactly one answer is placed, in that slot, to its origin, with its code and tag. The source of an origin is the
supervisor where the SUPERVISOR entry has its address, the panel where the PANEL entry has it, and none else; with no SUPERVISOR
entry every origin is the supervisor source (R186; that this bars the panel then is log entry 38). -/
def Obligations.RequestIsAnsweredOnce : Prop :=
  (∀ (h : ReqHeader) (f : RequestForm) (s : State), s.passive = false → h.origin ≠ ownOctet s → h.target = ownOctet s →
    (slotFull s (slotOf (requestSource s h.origin)) = true → exec (.receiveFrame (.request h f)) s =
      .next { s with me := { s.me with discards := min (2 ^ 32 - 1) (s.me.discards + 1) } }) ∧
    (slotFull s (slotOf (requestSource s h.origin)) = false → ∃ t reply, exec (.receiveFrame (.request h f)) s = .next t ∧
      t.ri.answers = s.ri.answers ++
        [⟨slotOf (requestSource s h.origin), h.origin, BitVec.ofNat 8 (formCode f), h.tag, reply⟩]) ∧
    (requestSource s h.origin = none → slotFull s .refusal = false → exec (.receiveFrame (.request h f)) s =
      .next { s with ri := { s.ri with answers := s.ri.answers ++
        [⟨.refusal, h.origin, BitVec.ofNat 8 (formCode f), h.tag, .refused .notPermitted .none .none⟩] } })) ∧
  (∀ (origin : Byte) (s : State),
    (stationIn s .supervisor = none → requestSource s origin = some .supervisor) ∧
    (∀ e, stationIn s .supervisor = some e → e.address = origin.toNat → requestSource s origin = some .supervisor) ∧
    (∀ e p, stationIn s .supervisor = some e → e.address ≠ origin.toNat → stationIn s .panel = some p →
      p.address = origin.toNat → requestSource s origin = some .panel) ∧
    (∀ e, stationIn s .supervisor = some e → e.address ≠ origin.toNat →
      (∀ p, stationIn s .panel = some p → p.address ≠ origin.toNat) → requestSource s origin = none)) ∧
  (∀ (r : Role) (s : State),
    (stationIn s r = none ↔ ∀ e, some e ∈ s.ri.stations → e.role ≠ r) ∧
    (∀ e, stationIn s r = some e → some e ∈ s.ri.stations ∧ e.role = r))

/-- A request of a code of Table 10-1 whose body has the wrong length, by whichever command it comes, is refused with SIZE; one
whose code the panel may not use is NOT_PERMITTED from it, whatever its body (a MODE or TRIGGER_SET of wrong length is SIZE,
log entry 58). A REQUEST with an incomplete header is refused with SIZE, one with a code outside Table 10-1 with
UNKNOWN_REQUEST. Nothing else changes. A REQUEST whose body fits its code is the command of its request, by whichever of the
two it comes (the one of a MODE outside the three is MODE's own statement). A REQUEST in octets whose header is alone is
IDENTIFY, START or RESTART by its code, and a body of any other length at these, like no body at another code of the table, is
of wrong length; what else a body spells is free (log entry 5). -/
def Obligations.RequestsRefusedAtIntake : Prop :=
  (∀ (h : ReqHeader) (src : MgmtSource) (code : Nat) (s : State), Reaches h src s → 1 ≤ code → code ≤ 20 →
     (¬(src = .panel ∧ code ∈ [5, 6, 8, 9, 10, 11]) → exec (.receiveFrame (.request h (.wrongSize code))) s =
       .next (answered h src (BitVec.ofNat 8 code) (.refused .size .none .none) s)) ∧
     (src = .panel → code ∈ [5, 6, 8, 9, 10, 11] → exec (.receiveFrame (.request h (.wrongSize code))) s =
       .next (answered h src (BitVec.ofNat 8 code) (.refused .notPermitted .none .none) s))) ∧
  (∀ (h : ReqHeader) (s : State), ∀ x ∈ ([
        (.identify h .wrongSize, 1), (.read h .wrongSize, 2), (.readFault h .wrongSize, 2), (.write h .wrongSize, 3),
        (.writeLineGeometry h .wrongSize, 3), (.writeRejectSpan h .wrongSize, 3),
        (.writeStandConfiguration h .wrongSize, 3), (.writeStand h .wrongSize, 3), (.writeGrade h .wrongSize, 3),
        (.writeZone h .wrongSize, 3), (.writeProfile h .wrongSize, 3), (.writeStation h .wrongSize, 3),
        (.load h .wrongSize, 4), (.loadRejectSpan h .wrongSize, 4), (.loadGrade h .wrongSize, 4),
        (.loadZone h .wrongSize, 4), (.loadProfile h .wrongSize, 4), (.loadStation h .wrongSize, 4),
        (.start h .wrongSize, 5), (.restart h .wrongSize, 6), (.modeHold h .wrongSize, 7),
        (.modeSingle h .wrongSize, 7), (.modeAuto h .wrongSize, 7), (.orderAppend h .wrongSize, 8),
        (.orderAmend h .wrongSize, 9), (.orderCancel h .wrongSize, 10), (.orderFront h .wrongSize, 11),
        (.rollPrepare h .wrongSize, 12), (.rollWithdraw h .wrongSize, 13), (.spliceNow h .wrongSize, 14),
        (.spliceAbort h .wrongSize, 15), (.latchClear h .wrongSize, 16), (.clearStop h .wrongSize, 17),
        (.mark h .wrongSize, 18), (.triggerSet h .wrongSize, 19), (.triggerClear h .wrongSize, 20)] : List (Instr × Nat)),
     exec x.1 s = exec (.receiveFrame (.request h (.wrongSize x.2))) s) ∧
  (∀ (h : ReqHeader) (b : Body) (s : State), exec (.receiveFrame (.request h (.body b))) s = exec (match b with
      | .identify => .identify h (.fields ())
      | .read item i => .read h (.fields (item, i))
      | .writePlain item i => .write h (.fields (item, i))
      | .writeLineGeometry g => .writeLineGeometry h (.fields g)
      | .writeRejectSpan i v => .writeRejectSpan h (.fields (i, v))
      | .writeStandConfiguration n => .writeStandConfiguration h (.fields n)
      | .writeStand k v => .writeStand h (.fields (k, v))
      | .writeGrade i v => .writeGrade h (.fields (i, v))
      | .writeZone n v => .writeZone h (.fields (n, v))
      | .writeProfile i v => .writeProfile h (.fields (i, v))
      | .writeStation i v => .writeStation h (.fields (i, v))
      | .loadPlain t f n => .load h (.fields (t, f, n))
      | .loadRejectSpan f vs => .loadRejectSpan h (.fields (f, vs))
      | .loadGrade f vs => .loadGrade h (.fields (f, vs))
      | .loadZone f vs => .loadZone h (.fields (f, vs))
      | .loadProfile f vs => .loadProfile h (.fields (f, vs))
      | .loadStation f vs => .loadStation h (.fields (f, vs))
      | .start => .start h (.fields ())
      | .restart => .restart h (.fields ())
      | .mode (.named .hold) => .modeHold h (.fields ())
      | .mode (.named .single) => .modeSingle h (.fields ())
      | .mode (.named .auto) => .modeAuto h (.fields ())
      | .mode (.beyond code) => .receiveFrame (.request h (.body (.mode (.beyond code))))
      | .orderAppend n v => .orderAppend h (.fields (n, v))
      | .orderAmend o v => .orderAmend h (.fields (o, v))
      | .orderCancel o => .orderCancel h (.fields o)
      | .orderFront o => .orderFront h (.fields o)
      | .rollPrepare k a r => .rollPrepare h (.fields (k, a, r))
      | .rollWithdraw k => .rollWithdraw h (.fields k)
      | .spliceNow k => .spliceNow h (.fields k)
      | .spliceAbort k => .spliceAbort h (.fields k)
      | .latchClear n ls => .latchClear h (.fields (n, ls))
      | .clearStop c => .clearStop h (.fields c)
      | .mark w l => .mark h (.fields (w, l))
      | .triggerSet t tag ht b => .triggerSet h (.fields (t, tag, ht, b))
      | .triggerClear n => .triggerClear h (.fields n)) s) ∧
  (∀ (h : ReqHeader) (i : Nat) (s : State),
     exec (.readFault h (.fields i)) s = exec (.read h (.fields (.named .fault, i))) s) ∧
  (∀ (h : ReqHeader) (f : RequestForm) (s : State), s.passive = false → h.origin ≠ ownOctet s → h.target = ownOctet s →
     exec (.receiveFrame (.request h f)) s = .next (takeRequest h f s)) ∧
  (∀ (h : ReqHeader) (b : Body) (s : State), Reaches h .panel s → b.code ∈ [5, 6, 8, 9, 10, 11] →
     exec (.receiveFrame (.request h (.body b))) s =
       .next (answered h .panel (BitVec.ofNat 8 b.code) (.refused .notPermitted .none .none) s)) ∧
  (∀ (h : FrameHeader) (src : MgmtSource) (p : List Byte) (s : State), s.passive = false → h.origin ≠ ownOctet s →
     h.target = ownOctet s → requestSource s h.origin = some src → slotFull s (slotOf (some src)) = false →
     (p.length < 4 → exec (.unknownRequest h p) s = .next { s with ri := { s.ri with answers := s.ri.answers ++
       [⟨slotOf (some src), h.origin, p.getD 0 0, p.getD 1 0, .refused .size .none .none⟩] } }) ∧
     (4 ≤ p.length → (p.getD 0 0 = 0 ∨ 20 < (p.getD 0 0).toNat) → exec (.unknownRequest h p) s =
       .next { s with ri := { s.ri with answers := s.ri.answers ++
         [⟨slotOf (some src), h.origin, p.getD 0 0, p.getD 1 0, .refused .unknownRequest .none .none⟩] } })) ∧
  (∀ (target origin seq code tag flags mask : Byte) (rest : List Byte) (s : State),
    let h : ReqHeader := ⟨target, origin, seq, tag, flags, mask⟩
    let taken := fun (f : RequestForm) =>
      takePayload target origin seq ([code, tag, flags, mask] ++ rest) s = takeRequest h f s
    (rest = [] → (code = 1 → taken (.body .identify)) ∧ (code = 5 → taken (.body .start)) ∧
      (code = 6 → taken (.body .restart))) ∧
    (rest ≠ [] → code ∈ [1, 5, 6] → taken (.wrongSize code.toNat)) ∧
    (rest = [] → code ∉ [1, 5, 6] → taken (.wrongSize code.toNat)))

/-- IDENTIFY answers with the part's family, number, revision, capacities, own address and part state. READ of each item of
Table 10-4 answers with the fields its owning rule lists, as they stand: the part's, the line's, the map's, an order's, a
station's and so on; the fault item is another statement's. NOT_FOUND answers a map entry, an order, a stand, a zone, a profile
or a grade beyond what there is, and the trip status of an unplaced zone; any other index out of range, and an item outside the
table, is FIELD_RANGE. An item without an index ignores it, and the knife status takes 0 for A and 1 for B (log entry 19); with
no current order the sequencer's lengths read 0 (log entry 42). A READ changes nothing but the model's counter of free values,
which the time left of a running timer advances: that value, at most the timer's duration, is free (log entry 3). -/
def Obligations.ReadsChangeNothing : Prop :=
  (∀ (h : ReqHeader) (src : MgmtSource) (s : State), Reaches h src s →
    exec (.identify h (.fields ())) s = .next (answered h src 1
      (.accepted (.identity "Adjora" 4120 1 128 64 32 16 8 32 5 8 s.ri.ownAddress s.me.running)) s) ∧
    (∀ i, exec (.read h (.fields (.named .lineStatus, i))) s = .next (answered h src 2 (.accepted (.item
      (.lineStatus s.pt.lineCount s.pt.speed s.pt.stopped s.pt.lostTallies s.pt.stop s.pt.slow))) s)) ∧
    (∀ i o, s.os.orders[i]? = some o → exec (.read h (.fields (.named .order, i))) s =
      .next (answered h src 2 (.accepted (.item (.order o))) s)) ∧
    (∀ i, s.os.orders.length ≤ i → exec (.read h (.fields (.named .order, i))) s =
      .next (answered h src 2 (.refused .notFound .none .none) s)) ∧
    (∀ n i, exec (.read h (.fields (.beyond n, i))) s =
      .next (answered h src 2 (.refused .parameter .fieldRange .none) s)) ∧
    (∀ item i, item ≠ .fault → ∃ reply free, exec (.read h (.fields (.named item, i))) s =
      .next (answered h src 2 reply { s with freeIndex := free }))) ∧
  (∀ (h : ReqHeader) (src : MgmtSource) (s : State), Reaches h src s →
    let answers := fun (item : Item) (i : Nat) (v : ItemValue) =>
      exec (.read h (.fields (.named item, i))) s = .next (answered h src 2 (.accepted (.item v)) s)
    let refuses := fun (item : Item) (i : Nat) (r : Reason) (d : Detail) =>
      exec (.read h (.fields (.named item, i))) s = .next (answered h src 2 (.refused r d .none) s)
    let answersLeft := fun (item : Item) (i duration : Nat) (v : Nat → ItemValue) => ∃ left, left ≤ duration ∧
      exec (.read h (.fields (.named item, i))) s =
        .next (answered h src 2 (.accepted (.item (v left))) { s with freeIndex := s.freeIndex + 1 })
    let full := fun (x : Slot) => s.ri.answers.any fun a => a.slot == x
    let marks := fun (p : MarkKind → Bool) => (s.sm.marks.filter fun m => p m.kind).length
    let feeds := fun (f : FeedState) => (s.os.orders.filter fun o => o.feed == f).length
    let knife := fun (k : KnifeId) =>
      let w := roleWord s (knifeRole k)
      ItemValue.knifeStatus (knifeOf s k) (w.getLsbD 0) (w.getLsbD 1) (w.getLsbD 2) (w.getLsbD 3)
    (∀ i, answers .managementStatus i (.managementStatus s.me.running s.me.discards
        (s.me.triggers.filter (·.isSome)).length (full .supervisor) (full .panel) (full .refusal)) ∧
      answers .lineGeometry i (.lineGeometry s.pt.geometry) ∧
      answers .mapStatus i (.mapStatus s.sm.marks.length
        (marks fun k => match k with
          | .boundary _ _ _ => true
          | _ => false)
        (marks fun k => match k with
          | .joint _ => true
          | _ => false)
        (marks fun k => match k with
          | .window _ _ .openEnded => true
          | _ => false)
        (marks fun k => match k with
          | .window _ _ (.closed _) => true
          | _ => false)
        s.sm.nextId (s.sm.marks.foldl (fun n m => max n m.uncertainty) 0)) ∧
      answers .sequencerStatus i (.sequencerStatus (feeds .queued) (feeds .next) (feeds .feeding) (feeds .committed)
        (feeds .fed) s.os.mode s.os.holdCause s.os.heldReason ((currentOrder s).map (·.id))
        (((currentOrder s).map (·.released)).getD 0) (((currentOrder s).bind (·.planned)).getD 0)) ∧
      answers .cutStatus i (.cutStatus s.cs.lastSeq s.cs.prevWc s.cs.counters s.cs.plan s.cs.gate) ∧
      (s.cs.stacker.timer = none → answers .stackerStatus i (.stackerStatus s.cs.stacker s.cs.stackCounter none)) ∧
      (∀ d, s.cs.stacker.timer = some d →
        answersLeft .stackerStatus i d fun left => .stackerStatus s.cs.stacker s.cs.stackCounter (some left)) ∧
      answers .standConfiguration i (.standConfiguration s.sc.stands.length) ∧
      answers .tripCounters i (.tripCounters s.ts.readingsTaken s.ts.unmatched) ∧
      answers .ringStatus i (.ringStatus s.ri.ownAddress s.ri.frameFaults s.ri.returned s.ri.stray s.ri.malformed
        s.ri.overruns s.ri.discardedDirectives s.ri.reportsLost s.ri.directives.length
        (s.ri.directives.filterMap fun d => match d.directive with
          | .setpoint z _ _ => some z
          | _ => none)
        ((s.ri.directives.filterMap fun d => match d.directive with
          | .lineRequest r => some r
          | _ => none).head?)
        (full .supervisor) (full .panel) (full .refusal) s.ri.reports.length s.ri.held.length s.ri.reportNumber)) ∧
    (∀ i, i < 8 → answers .trigger i (.trigger (s.me.triggers[i]?).join)) ∧
    (∀ i, 8 ≤ i → refuses .trigger i .parameter .fieldRange) ∧
    (∀ i m, s.sm.marks[i]? = some m →
      answers .mapEntry i (.mapEntry m (farEdge s m) (extentLow s m) (extentHigh s m))) ∧
    (∀ i, s.sm.marks.length ≤ i → refuses .mapEntry i .notFound .none) ∧
    (∀ i, i < 9 → answers .rejectSpan i (.rejectSpan (s.sm.spans.getD i ⟨0, 0⟩))) ∧
    (∀ i, 9 ≤ i → refuses .rejectSpan i .parameter .fieldRange) ∧
    answers .knifeStatus 0 (knife .a) ∧ answers .knifeStatus 1 (knife .b) ∧
    (∀ i, 2 ≤ i → refuses .knifeStatus i .parameter .fieldRange) ∧
    (∀ k r, standOf s k = some r →
      let w := roleWord s (.stand k)
      answers .stand k (.stand r (w.getLsbD 0) (w.getLsbD 1) (w.getLsbD 2) (w.getLsbD 3))) ∧
    (∀ k, standOf s k = none → refuses .stand k .notFound .none) ∧
    (∀ g, g < 32 → answers .grade g (.grade (s.zr.grades[g]?).join
      (s.zr.zones.any (fun z => z.grade == some g) || s.os.orders.any fun o => o.grade == g))) ∧
    (∀ g, 32 ≤ g → refuses .grade g .notFound .none) ∧
    (∀ n z, s.zr.zones[n]? = some z → answers .zone n (.zone z (z.ramp.map fun r => s.pt.lineCount - r.startCount)
      (z.ramp.map fun r => stageValue r r.stageIndex))) ∧
    (∀ n, s.zr.zones.length ≤ n → refuses .zone n .notFound .none) ∧
    (∀ i p, s.zr.profiles[i]? = some p → answers .profile i (.profile p)) ∧
    (∀ i, s.zr.profiles.length ≤ i → refuses .profile i .notFound .none) ∧
    (∀ n z, n < 16 → s.zr.zones[n]? = some z → z.placed = true →
      ((tripOf s n).timer = none → answers .tripStatus n (.tripStatus (tripOf s n) none)) ∧
      (∀ d, (tripOf s n).timer = some d → answersLeft .tripStatus n d fun left => .tripStatus (tripOf s n) (some left))) ∧
    (∀ n, n < 16 → (∀ z, s.zr.zones[n]? = some z → z.placed = false) → refuses .tripStatus n .notFound .none) ∧
    (∀ n, 16 ≤ n → refuses .tripStatus n .parameter .fieldRange) ∧
    (∀ i, i < 32 → answers .station i (match (s.ri.stations[i]?).join with
      | some e => .station e.address e.role e.watch e.word e.lastOffset
          ((s.ri.held.filter fun x => x.entry == i).map (·.report))
      | none => .stationEmpty)) ∧
    (∀ i, 32 ≤ i → refuses .station i .parameter .fieldRange))

/-- A WRITE or LOAD with an empty group mask on an item of several groups, with no fields in its body, is accepted and changes
nothing (log entry 30): the line geometry, a stand, a zone, a station. One of any item that cannot be written, or of any table
that cannot be loaded, is FIELD_RANGE, as is one of an item outside Table 10-4 (log entry 31), a mask bit that names no group,
and a LOAD of no entry, of more than eight or beyond the table. A body with no fields where the mask names a group, or where the
item has one group alone, is too short and is SIZE (log entry 30). -/
def Obligations.EmptyMaskChangesNothing : Prop :=
  ∀ (h : ReqHeader) (src : MgmtSource) (i count : Nat) (s : State), Reaches h src s →
    (∀ item, (item = .lineGeometry ∨ item = .stand ∨ item = .zone ∨ item = .station) → h.mask = 0 →
      exec (.write h (.fields (.named item, i))) s = .next (answered h src 3 (.accepted .none) s)) ∧
    (h.mask = 0 → 1 ≤ count → count ≤ 8 →
      (i + count ≤ 16 → exec (.load h (.fields (.named .zone, i, count))) s = .next (answered h src 4 (.accepted .none) s)) ∧
      (i + count ≤ 32 → exec (.load h (.fields (.named .station, i, count))) s =
        .next (answered h src 4 (.accepted .none) s))) ∧
    (∀ n, exec (.write h (.fields (.beyond n, i))) s =
        .next (answered h src 3 (.refused .parameter .fieldRange .none) s) ∧
      exec (.load h (.fields (.beyond n, i, count))) s = .next (answered h src 4 (.refused .parameter .fieldRange .none) s)) ∧
    (∀ item : Item, item ∉ [.lineGeometry, .rejectSpan, .standConfiguration, .stand, .grade, .zone, .profile, .station] →
      exec (.write h (.fields (.named item, i))) s = .next (answered h src 3 (.refused .parameter .fieldRange .none) s)) ∧
    (∀ item ∈ [Item.rejectSpan, .standConfiguration, .grade, .profile],
      exec (.write h (.fields (.named item, i))) s = .next (answered h src 3 (.refused .size .none .none) s)) ∧
    (∀ x ∈ [(Item.lineGeometry, 4), (.stand, 2), (.zone, 4), (.station, 2)],
      (h.mask.toNat % 2 ^ x.2 ≠ 0 → exec (.write h (.fields (.named x.1, i))) s =
        .next (answered h src 3 (.refused .size .none .none) s)) ∧
      (h.mask ≠ 0 → h.mask.toNat % 2 ^ x.2 = 0 → exec (.write h (.fields (.named x.1, i))) s =
        .next (answered h src 3 (.refused .parameter .fieldRange .none) s))) ∧
    (∀ item : Item, (item ∉ [.rejectSpan, .grade, .zone, .profile, .station] ∨ count = 0) →
      exec (.load h (.fields (.named item, i, count))) s =
        .next (answered h src 4 (.refused .parameter .fieldRange .none) s)) ∧
    (∀ item ∈ [Item.rejectSpan, .grade, .profile], 1 ≤ count → exec (.load h (.fields (.named item, i, count))) s =
      .next (answered h src 4 (.refused .size .none .none) s)) ∧
    (∀ x ∈ [(Item.zone, 4, 16), (.station, 2, 32)], 1 ≤ count →
      (h.mask.toNat % 2 ^ x.2.1 ≠ 0 → exec (.load h (.fields (.named x.1, i, count))) s =
        .next (answered h src 4 (.refused .size .none .none) s)) ∧
      (h.mask.toNat % 2 ^ x.2.1 = 0 → (8 < count ∨ x.2.2 < i + count ∨ h.mask ≠ 0) →
        exec (.load h (.fields (.named x.1, i, count))) s =
          .next (answered h src 4 (.refused .parameter .fieldRange .none) s)))

/-- WRITE of the line geometry: a value out of range is FIELD_RANGE; GEOMETRY and TALLY are kept for CONFIGURING; a DRY write in
RUNNING that breaks a lead bound is LEAD_LONG; a DRY write that passes these, with a deck capacity below the cuts held in the
deck stack, is IN_USE (R102). A taken write sets the masked groups, examines the tracking warning at a new warn limit and is
followed by an evaluation at a DRY write. A mask that names no group is accepted and changes nothing, and one beyond the four is
FIELD_RANGE. The ranges and the groups are those of Table 1-1. -/
def Obligations.GeometryWrite : Prop :=
  (∀ (h : ReqHeader) (src : MgmtSource) (g : Geometry) (s : State), Reaches h src s → h.mask ≠ 0 → h.mask.toNat < 16 →
    let new := writeGeometry h.mask g s.pt.geometry
    (geometryInRange h.mask g = false → exec (.writeLineGeometry h (.fields g)) s =
      .next (answered h src 3 (.refused .parameter .fieldRange .none) s)) ∧
    (geometryInRange h.mask g = true → s.me.running = true → (masked h.mask 0 = true ∨ masked h.mask 1 = true) →
      exec (.writeLineGeometry h (.fields g)) s = .next (answered h src 3 (.refused .wrongState .none .none) s)) ∧
    (geometryInRange h.mask g = true → s.me.running = true → masked h.mask 0 = false → masked h.mask 1 = false →
      masked h.mask 3 = true → geometryLeadsFit new = false → exec (.writeLineGeometry h (.fields g)) s =
        .next (answered h src 3 (.refused .parameter .leadLong .none) s)) ∧
    (∀ d, geometryInRange h.mask g = true → (s.me.running = true → masked h.mask 0 = false ∧ masked h.mask 1 = false ∧
        geometryLeadsFit new = true) →
      masked h.mask 3 = true → s.cs.stacker.deck = some d → g.deckCapacity < d.cuts →
      exec (.writeLineGeometry h (.fields g)) s = .next (answered h src 3 (.refused .inUse .none .none) s)) ∧
    (geometryInRange h.mask g = true →
      (s.me.running = true → masked h.mask 0 = false ∧ masked h.mask 1 = false ∧
        (masked h.mask 3 = true → geometryLeadsFit new = true)) →
      (masked h.mask 3 = true → ∀ d, s.cs.stacker.deck = some d → d.cuts ≤ g.deckCapacity) →
      let s1 := { s with pt := { s.pt with geometry := new } }
      let s2 := if masked h.mask 2 then examineTracking s1 else s1
      exec (.writeLineGeometry h (.fields g)) s = .next (answered h src 3 (.accepted .none)
        (if masked h.mask 3 then evaluate s2 else s2)))) ∧
  (∀ (h : ReqHeader) (src : MgmtSource) (g : Geometry) (s : State), Reaches h src s →
    (h.mask = 0 → exec (.writeLineGeometry h (.fields g)) s = .next (answered h src 3 (.accepted .none) s)) ∧
    (16 ≤ h.mask.toNat → exec (.writeLineGeometry h (.fields g)) s =
      .next (answered h src 3 (.refused .parameter .fieldRange .none) s))) ∧
  (∀ (mask : Byte) (i : Nat), masked mask i = true ↔ mask.toNat / 2 ^ i % 2 = 1) ∧
  (∀ (mask : Byte) (g : Geometry), geometryInRange mask g = true ↔
    (masked mask 0 = true → g.knifeAOffset ≤ 250000 ∧ g.knifeBOffset ≤ 250000 ∧ g.cutoffOffset ≤ 250000 ∧
      g.gateOffset ≤ 250000 ∧ 5000 ≤ g.dPre ∧ g.dPre ≤ 60000) ∧
    (masked mask 1 = true → 20 ≤ g.maxDelta ∧ g.maxDelta ≤ 250 ∧ 5 ≤ g.tallyInterval ∧ g.tallyInterval ≤ 50) ∧
    (masked mask 2 = true → 100 ≤ g.warnLimit ∧ g.warnLimit ≤ 20000 ∧ g.mergeGap ≤ 5000) ∧
    (masked mask 3 = true → g.knifeLead ≤ 80000 ∧ g.cutoffLead ≤ 80000 ∧ g.gateDwell ≤ 3000 ∧ g.shortTolerance ≤ 50 ∧
      g.deckCapacity ≤ 100 ∧ 1 ≤ g.transferTimeout ∧ g.transferTimeout ≤ 60 ∧ 60 ≤ g.minLane ∧ g.minLane ≤ 400 ∧
      g.minTrim ≤ 50)) ∧
  (∀ (mask : Byte) (v g : Geometry),
    let pick := fun (i new old : Nat) => if masked mask i = true then new else old
    writeGeometry mask v g =
      { knifeAOffset := pick 0 v.knifeAOffset g.knifeAOffset, knifeBOffset := pick 0 v.knifeBOffset g.knifeBOffset,
        cutoffOffset := pick 0 v.cutoffOffset g.cutoffOffset, gateOffset := pick 0 v.gateOffset g.gateOffset,
        dPre := pick 0 v.dPre g.dPre,
        maxDelta := pick 1 v.maxDelta g.maxDelta, tallyInterval := pick 1 v.tallyInterval g.tallyInterval,
        warnLimit := pick 2 v.warnLimit g.warnLimit, mergeGap := pick 2 v.mergeGap g.mergeGap,
        knifeLead := pick 3 v.knifeLead g.knifeLead, cutoffLead := pick 3 v.cutoffLead g.cutoffLead,
        gateDwell := pick 3 v.gateDwell g.gateDwell, shortTolerance := pick 3 v.shortTolerance g.shortTolerance,
        deckCapacity := pick 3 v.deckCapacity g.deckCapacity, transferTimeout := pick 3 v.transferTimeout g.transferTimeout,
        minLane := pick 3 v.minLane g.minLane, minTrim := pick 3 v.minTrim g.minTrim }) ∧
  (∀ g : Geometry, geometryLeadsFit g = true ↔
    g.knifeLead ≤ g.knifeAOffset + g.dPre ∧ g.cutoffLead ≤ g.cutoffOffset + g.dPre)

/-- WRITE of a reject span entry and of a profile, LOAD of one to eight entries of either, and WRITE of the stand configuration
set exactly the entries they name: spans and profiles in either part state, the stand count 3 or 5 in CONFIGURING, with kept
records below the count and new ones above. A span beyond 5,000 is FIELD_RANGE, as is a WRITE's index outside its table (log
entry 11) and a LOAD that reaches beyond it, of no entry or of more than eight; a profile that fails one of the five checks of
Table 7-2 has the first one's detail code, in a LOAD the first failing entry's; a stand count other than 3 and 5 is FIELD_RANGE,
and the stand configuration in RUNNING is WRONG_STATE. -/
def Obligations.SpansProfilesAndStandCount : Prop :=
  (∀ (h : ReqHeader) (src : MgmtSource) (s : State), Reaches h src s →
    (∀ i (v : Span), i < 9 → v.lead ≤ 5000 → v.trail ≤ 5000 → exec (.writeRejectSpan h (.fields (i, v))) s =
      .next (answered h src 3 (.accepted .none) { s with sm := { s.sm with spans := s.sm.spans.set i v } })) ∧
    (∀ i (v : Span), (9 ≤ i ∨ 5000 < v.lead ∨ 5000 < v.trail) → exec (.writeRejectSpan h (.fields (i, v))) s =
      .next (answered h src 3 (.refused .parameter .fieldRange .none) s)) ∧
    (∀ i (vs : List Span), 1 ≤ vs.length → vs.length ≤ 8 → i + vs.length ≤ 9 → (∀ v ∈ vs, v.lead ≤ 5000 ∧ v.trail ≤ 5000) →
      exec (.loadRejectSpan h (.fields (i, vs))) s = .next (answered h src 4 (.accepted .none)
        { s with sm := { s.sm with spans := vs.zipIdx.foldl (fun l x => l.set (i + x.2) x.1) s.sm.spans } })) ∧
    (∀ i (vs : List Span), (vs.length = 0 ∨ 8 < vs.length ∨ 9 < i + vs.length ∨ ∃ v ∈ vs, 5000 < v.lead ∨ 5000 < v.trail) →
      exec (.loadRejectSpan h (.fields (i, vs))) s =
        .next (answered h src 4 (.refused .parameter .fieldRange .none) s)) ∧
    (∀ i p, i < 8 → profileCheck p = none → exec (.writeProfile h (.fields (i, p))) s =
      .next (answered h src 3 (.accepted .none) { s with zr := { s.zr with profiles := s.zr.profiles.set i p } })) ∧
    (∀ i p d, i < 8 → profileCheck p = some d → exec (.writeProfile h (.fields (i, p))) s =
      .next (answered h src 3 (.refused .parameter d .none) s)) ∧
    (∀ i p, 8 ≤ i → exec (.writeProfile h (.fields (i, p))) s =
      .next (answered h src 3 (.refused .parameter .fieldRange .none) s)) ∧
    (∀ i (ps : List Profile), 1 ≤ ps.length → ps.length ≤ 8 → i + ps.length ≤ 8 →
      (ps.findSome? profileCheck = none → exec (.loadProfile h (.fields (i, ps))) s =
        .next (answered h src 4 (.accepted .none) { s with zr := { s.zr with
          profiles := ps.zipIdx.foldl (fun l x => l.set (i + x.2) x.1) s.zr.profiles } })) ∧
      (∀ d, ps.findSome? profileCheck = some d → exec (.loadProfile h (.fields (i, ps))) s =
        .next (answered h src 4 (.refused .parameter d .none) s))) ∧
    (∀ i (ps : List Profile), (ps.length = 0 ∨ 8 < ps.length ∨ 8 < i + ps.length) →
      exec (.loadProfile h (.fields (i, ps))) s = .next (answered h src 4 (.refused .parameter .fieldRange .none) s)) ∧
    (∀ n, (n = 3 ∨ n = 5) → s.me.running = false → exec (.writeStandConfiguration h (.fields n)) s =
      .next (answered h src 3 (.accepted .none) { s with sc := { s.sc with
        stands := s.sc.stands.take n ++ List.replicate (n - s.sc.stands.length)
          { role := .liner, takeup := 1000, effOffset := 0, spliceLead := 0, runOut := 60000, maxSpeed := 300,
            accelTimeout := 20, pasteTimeout := 3, address := none, active := none, carry := 0, standby := .empty,
            splice := idleSplice, jointRef := none, mismatch := none } } })) ∧
    (∀ n, (n = 3 ∨ n = 5) → s.me.running = true → exec (.writeStandConfiguration h (.fields n)) s =
      .next (answered h src 3 (.refused .wrongState .none .none) s)) ∧
    (∀ n, n ≠ 3 → n ≠ 5 → exec (.writeStandConfiguration h (.fields n)) s =
      .next (answered h src 3 (.refused .parameter .fieldRange .none) s))) ∧
  (∀ p : Profile, profileCheck p = ([
    if 2 ≤ p.stages.length ∧ p.stages.length ≤ 12 then none else some .stageCount,
    if ∀ x ∈ p.stages, 100 ≤ x.length then none else some .stageShort,
    if (p.stages.map (·.share)).sum = 1000 then none else some .shareSum,
    if (p.stages.map (·.length)).sum ≤ 40000 then none else some .profileLong,
    if ∀ x ∈ p.stages, x.share ≠ 0 then none else some .shareZero] : List (Option Detail)).findSome? id)

/-- WRITE of a stand, a zone and a station entry, and LOAD of one to eight zones and stations, that pass every check of their
rules set the masked groups of the records they name; an empty mask is accepted and changes nothing; a zone whose standby delay
becomes 0 has its timer stopped, and an entry whose IDENTITY is written or that is emptied, under any mask that is not empty
(log entry 37), has status word and offset 0 and discards its held reports, each with a number and counted lost; an entry made
by IDENTITY without WATCH where there was none has watch mask 0 (log entry 62); no block is handed a bit of the word so cleared
(log entry 65). A stand that does not exist is NOT_FOUND (log entry 11). The refusals, in their order: FIELD_RANGE for a mask
beyond the groups, a LOAD beyond the table, an index outside it (log entry 11) and a field out of range; WRONG_STATE in RUNNING
for MOUNT, PLACE, IDENTITY and an emptying; LEAD_LONG in RUNNING for a lead beyond offset + D_pre; for a station NOT_FOUND where
WATCH alone names an empty entry (log entry 12), then DUPLICATE for the own address. The first failing entry of a LOAD refuses
it; then DUPLICATE two placed zones of one reading source, two stations of one address or of one role other than ZONE, in the
table as it would stand (log entry 13). -/
def Obligations.StandZoneAndStationWrites : Prop :=
  (∀ (h : ReqHeader) (src : MgmtSource) (s : State), Reaches h src s → h.mask ≠ 0 →
    (∀ k v, h.mask.toNat < 4 → standOf s k = none → exec (.writeStand h (.fields (k, v))) s =
      .next (answered h src 3 (.refused .notFound .none .none) s)) ∧
    (∀ k v, 4 ≤ h.mask.toNat → exec (.writeStand h (.fields (k, v))) s =
      .next (answered h src 3 (.refused .parameter .fieldRange .none) s)) ∧
    (∀ k v r, h.mask.toNat < 4 → standOf s k = some r →
      (standInRange h.mask v = false → exec (.writeStand h (.fields (k, v))) s =
        .next (answered h src 3 (.refused .parameter .fieldRange .none) s)) ∧
      (standInRange h.mask v = true → s.me.running = true → masked h.mask 0 = true →
        exec (.writeStand h (.fields (k, v))) s = .next (answered h src 3 (.refused .wrongState .none .none) s)) ∧
      (standInRange h.mask v = true → s.me.running = true → masked h.mask 0 = false → masked h.mask 1 = true →
        r.effOffset + s.pt.geometry.dPre < v.spliceLead → exec (.writeStand h (.fields (k, v))) s =
          .next (answered h src 3 (.refused .parameter .leadLong .none) s)) ∧
      (standInRange h.mask v = true → (s.me.running = true → masked h.mask 0 = false ∧
          (masked h.mask 1 = true → v.spliceLead ≤ r.effOffset + s.pt.geometry.dPre)) →
        exec (.writeStand h (.fields (k, v))) s =
          .next (answered h src 3 (.accepted .none) (modStand k (writeStandFields h.mask v) s)))) ∧
    (∀ n v, h.mask.toNat < 16 → zonesRefusal s h.mask [(n, v)] = none → exec (.writeZone h (.fields (n, v))) s =
      .next (answered h src 3 (.accepted .none)
        (if masked h.mask 2 && v.standbyDelay == 0 then
           modTrip n (fun t => { t with timer := none }) (modZone n (writeZoneFields h.mask v) s)
         else modZone n (writeZoneFields h.mask v) s))) ∧
    (∀ n v x, h.mask.toNat < 16 → zonesRefusal s h.mask [(n, v)] = some x → exec (.writeZone h (.fields (n, v))) s =
      .next (answered h src 3 x s)) ∧
    (∀ n v, 16 ≤ h.mask.toNat → exec (.writeZone h (.fields (n, v))) s =
      .next (answered h src 3 (.refused .parameter .fieldRange .none) s)) ∧
    (∀ n (vs : List ZoneFields),
      let es := vs.zipIdx.map fun x => (n + x.2, x.1)
      ((vs.length = 0 ∨ 8 < vs.length ∨ 16 < n + vs.length ∨ 16 ≤ h.mask.toNat) → exec (.loadZone h (.fields (n, vs))) s =
        .next (answered h src 4 (.refused .parameter .fieldRange .none) s)) ∧
      (1 ≤ vs.length → vs.length ≤ 8 → n + vs.length ≤ 16 → h.mask.toNat < 16 →
        (∀ x, zonesRefusal s h.mask es = some x → exec (.loadZone h (.fields (n, vs))) s = .next (answered h src 4 x s)) ∧
        (zonesRefusal s h.mask es = none → exec (.loadZone h (.fields (n, vs))) s =
          .next (answered h src 4 (.accepted .none) (es.foldl (fun t e => setZone h.mask e.1 e.2 t) s))))) ∧
    (∀ i v, h.mask.toNat < 4 → stationsRefusal s h.mask [(i, v)] = none → exec (.writeStation h (.fields (i, v))) s =
      .next (answered h src 3 (.accepted .none)
        (let t := { s with ri := { s.ri with
          stations := s.ri.stations.set i (stationAfter h.mask v (s.ri.stations[i]?).join) } }
         if writesIdentity h.mask v then discardHeld i t else t))) ∧
    (∀ i v x, h.mask.toNat < 4 → stationsRefusal s h.mask [(i, v)] = some x → exec (.writeStation h (.fields (i, v))) s =
      .next (answered h src 3 x s)) ∧
    (∀ i v, 4 ≤ h.mask.toNat → exec (.writeStation h (.fields (i, v))) s =
      .next (answered h src 3 (.refused .parameter .fieldRange .none) s)) ∧
    (∀ i (vs : List StationForm),
      let es := vs.zipIdx.map fun x => (i + x.2, x.1)
      ((vs.length = 0 ∨ 8 < vs.length ∨ 32 < i + vs.length ∨ 4 ≤ h.mask.toNat) → exec (.loadStation h (.fields (i, vs))) s =
        .next (answered h src 4 (.refused .parameter .fieldRange .none) s)) ∧
      (1 ≤ vs.length → vs.length ≤ 8 → i + vs.length ≤ 32 → h.mask.toNat < 4 →
        (∀ x, stationsRefusal s h.mask es = some x → exec (.loadStation h (.fields (i, vs))) s =
          .next (answered h src 4 x s)) ∧
        (stationsRefusal s h.mask es = none → exec (.loadStation h (.fields (i, vs))) s =
          .next (answered h src 4 (.accepted .none) (es.foldl (fun t e => writeStation h.mask e.1 e.2 t) s)))))) ∧
  (∀ (mask : Byte) (es : List (Nat × ZoneFields)) (s : State),
    let bad := fun (d : Detail) => some (Reply.refused .parameter d .none)
    let failing := es.findSome? fun e => ([
      if e.1 < 16 ∧ zoneInRange mask e.2 = true then none else bad .fieldRange,
      if s.me.running = true ∧ masked mask 0 = true then some (.refused .wrongState .none .none) else none,
      if s.me.running = true ∧ masked mask 1 = true ∧ zoneOffset s e.1 + s.pt.geometry.dPre < e.2.rampLead then bad .leadLong
        else none] : List (Option Reply)).findSome? id
    let after : State := es.foldl (fun t e => setZone mask e.1 e.2 t) s
    let sources : List (Option Nat × Nat) := (after.zr.zones.filter (·.placed)).map fun z => (z.station, z.channel)
    zonesRefusal s mask es = match failing with
      | some x => some x
      | none => if masked mask 0 = true ∧ ¬sources.Nodup then some (.refused .duplicate .none .none) else none) ∧
  (∀ (mask : Byte) (es : List (Nat × StationForm)) (s : State),
    let identity : StationForm → Bool := fun v => match v with
      | .empty => true
      | .fields _ _ _ => masked mask 0
    let own : StationForm → Bool := fun v => match v with
      | .empty => false
      | .fields a _ _ => masked mask 0 && a == s.ri.ownAddress.toNat
    let failing := es.findSome? fun e => ([
      if e.1 < 32 ∧ stationInRange mask e.2 = true then none else some (Reply.refused .parameter .fieldRange .none),
      if s.me.running = true ∧ identity e.2 = true then some (.refused .wrongState .none .none) else none,
      if identity e.2 = false ∧ (s.ri.stations[e.1]?).join = none then some (.refused .notFound .none .none) else none,
      if own e.2 = true then some (.refused .duplicate .none .none) else none] : List (Option Reply)).findSome? id
    let after := (es.foldl (fun t e => writeStation mask e.1 e.2 t) s).ri.stations.filterMap id
    stationsRefusal s mask es = match failing with
      | some x => some x
      | none =>
        if (after.map (·.address)).Nodup ∧ ((after.map (·.role)).filter fun r => r != .zone).Nodup then none
        else some (.refused .duplicate .none .none)) ∧
  (∀ (mask : Byte) (v : StandFields), standInRange mask v = true ↔
    (masked mask 0 = true → ((v.role = .named .liner ∧ 1000 ≤ v.takeup ∧ v.takeup ≤ 1100) ∨
      (v.role = .named .medium ∧ 1100 ≤ v.takeup ∧ v.takeup ≤ 1700)) ∧ 1 ≤ v.effOffset ∧ v.effOffset ≤ 250000) ∧
    (masked mask 1 = true → v.spliceLead ≤ 80000 ∧ v.runOut ≤ 500000 ∧ 50 ≤ v.maxSpeed ∧ v.maxSpeed ≤ 500 ∧
      1 ≤ v.accelTimeout ∧ v.accelTimeout ≤ 60 ∧ 1 ≤ v.pasteTimeout ∧ v.pasteTimeout ≤ 10)) ∧
  (∀ (mask : Byte) (v : ZoneFields), zoneInRange mask v = true ↔
    (masked mask 0 = true → (∃ k, v.kind = .named k) ∧ 1 ≤ v.offset ∧ v.offset ≤ 250000 ∧ 1 ≤ v.station ∧ v.station ≤ 62 ∧
      v.channel ≤ 15) ∧
    (masked mask 1 = true → v.rampLead ≤ 80000 ∧ v.profile ≤ 7) ∧
    (masked mask 2 = true → v.standbyDelay ≤ 250 ∧ -32768 ≤ v.standbySetpoint ∧ v.standbySetpoint ≤ 32767) ∧
    (masked mask 3 = true → -32768 ≤ v.bandLow ∧ v.bandLow ≤ 0 ∧ 0 ≤ v.bandHigh ∧ v.bandHigh ≤ 32767 ∧ -32768 ≤ v.cutout ∧
      v.cutout ≤ 32767 ∧ v.hysteresis ≤ 500 ∧ v.foreignAction = false)) ∧
  (∀ (mask : Byte) (v : StationForm), stationInRange mask v = true ↔
    ∀ a r w, v = .fields a r w → masked mask 0 = true → 1 ≤ a ∧ a ≤ 62 ∧
      ((∃ k, r = .named (.stand k) ∧ 1 ≤ k ∧ k ≤ 5) ∨ (∃ x, r = .named x ∧ ∀ k, x ≠ .stand k))) ∧
  (∀ (h : ReqHeader) (src : MgmtSource) (i : Nat) (s : State), Reaches h src s → h.mask = 0 →
    (∀ v, exec (.writeStand h (.fields (i, v))) s = .next (answered h src 3 (.accepted .none) s)) ∧
    (∀ v, exec (.writeZone h (.fields (i, v))) s = .next (answered h src 3 (.accepted .none) s)) ∧
    (∀ v, exec (.writeStation h (.fields (i, v))) s = .next (answered h src 3 (.accepted .none) s)) ∧
    (∀ vs : List ZoneFields, exec (.loadZone h (.fields (i, vs))) s = .next (answered h src 4
      (if 1 ≤ vs.length ∧ vs.length ≤ 8 ∧ i + vs.length ≤ 16 then .accepted .none
       else .refused .parameter .fieldRange .none) s)) ∧
    (∀ vs : List StationForm, exec (.loadStation h (.fields (i, vs))) s = .next (answered h src 4
      (if 1 ≤ vs.length ∧ vs.length ≤ 8 ∧ i + vs.length ≤ 32 then .accepted .none
       else .refused .parameter .fieldRange .none) s))) ∧
  (∀ (mask : Byte) (v : StandFields) (r : Stand),
    let pick := fun (i new old : Nat) => if masked mask i = true then new else old
    writeStandFields mask v r = { r with
      role := (match masked mask 0, v.role with
        | true, .named p => p
        | _, _ => r.role),
      takeup := pick 0 v.takeup r.takeup, effOffset := pick 0 v.effOffset r.effOffset,
      spliceLead := pick 1 v.spliceLead r.spliceLead, runOut := pick 1 v.runOut r.runOut,
      maxSpeed := pick 1 v.maxSpeed r.maxSpeed, accelTimeout := pick 1 v.accelTimeout r.accelTimeout,
      pasteTimeout := pick 1 v.pasteTimeout r.pasteTimeout }) ∧
  (∀ (mask : Byte) (v : ZoneFields) (z : Zone),
    let pick := fun (i new old : Nat) => if masked mask i = true then new else old
    let value := fun (i : Nat) (new old : Int) => if masked mask i = true then new else old
    let actions := fun (new old : ActionSet) => if masked mask 3 = true then new else old
    writeZoneFields mask v z = { z with
      placed := masked mask 0 || z.placed,
      kind := (match masked mask 0, v.kind with
        | true, .named k => k
        | _, _ => z.kind),
      offset := pick 0 v.offset z.offset, station := if masked mask 0 = true then some v.station else z.station,
      channel := pick 0 v.channel z.channel, rampLead := pick 1 v.rampLead z.rampLead, profile := pick 1 v.profile z.profile,
      standbyDelay := pick 2 v.standbyDelay z.standbyDelay, standbySetpoint := value 2 v.standbySetpoint z.standbySetpoint,
      bandLow := value 3 v.bandLow z.bandLow, bandHigh := value 3 v.bandHigh z.bandHigh, cutout := value 3 v.cutout z.cutout,
      hysteresis := pick 3 v.hysteresis z.hysteresis, lowActions := actions v.lowActions z.lowActions,
      highActions := actions v.highActions z.highActions, cutoutActions := actions v.cutoutActions z.cutoutActions }) ∧
  (∀ (mask : Byte) (n : Nat) (v : ZoneFields) (s : State),
    let written := modZone n (writeZoneFields mask v) s
    setZone mask n v s = if masked mask 2 = true ∧ v.standbyDelay = 0 then modTrip n (fun t => { t with timer := none }) written
      else written) ∧
  (∀ (mask : Byte) (address : Nat) (role : Role) (watch : Word16) (old : Option Station),
    stationAfter mask .empty old = none ∧
    (masked mask 0 = true → stationAfter mask (.fields address (.named role) watch) old = some {
      address := address, role := role, word := 0, lastOffset := 0,
      watch := if masked mask 1 = true then watch else (old.map (·.watch)).getD 0 }) ∧
    (masked mask 0 = false → stationAfter mask (.fields address (.named role) watch) old =
      old.map fun e => { e with watch := watch })) ∧
  (∀ (mask : Byte) (v : StationForm), writesIdentity mask v = true ↔ v = .empty ∨ masked mask 0 = true) ∧
  (∀ (mask : Byte) (i : Nat) (v : StationForm) (s : State),
    let t := { s with ri := { s.ri with stations := s.ri.stations.set i (stationAfter mask v (s.ri.stations[i]?).join) } }
    writeStation mask i v s = if writesIdentity mask v = true then discardHeld i t else t) ∧
  (∀ (i : Nat) (s : State),
    let gone := (s.ri.held.filter fun x => x.entry == i).length
    discardHeld i s = { s with ri := { s.ri with
      held := s.ri.held.filter fun x => x.entry != i, reportsLost := min (2 ^ 32 - 1) (s.ri.reportsLost + gone),
      reportNumber := s.ri.reportNumber + BitVec.ofNat 16 gone } })

/-- WRITE and LOAD of grades: an index of 32 or more, and a LOAD of no entry, of more than eight or beyond index 31, is
FIELD_RANGE; a paper code outside 1-4095 is PAPER_RANGE, and a record in use, by a zone or an order, is IN_USE, unless FORCE is
set and the record is not emptied; the first failing entry of a LOAD refuses it whole. A taken one replaces every record, and
then, record by record in index order, applies it in RUNNING to the zones it is in effect for, and an evaluation follows (R137,
R192; that the checks of a LOAD's entries come before any effect, entry by entry, is log entry 13). -/
def Obligations.GradeWrites : Prop :=
  (∀ (h : ReqHeader) (src : MgmtSource) (g : Nat) (v : Option Grade) (s : State), Reaches h src s →
    let barred := fun (i : Nat) (x : Option Grade) => gradeInUse s i = true ∧ ¬(h.force = true ∧ x ≠ none)
    let effect := fun (i : Nat) (t : State) => evaluate (if t.me.running = true then applyGrade evaluate i t else t)
    (32 ≤ g → exec (.writeGrade h (.fields (g, v))) s = .next (answered h src 3 (.refused .parameter .fieldRange .none) s)) ∧
    (g < 32 → gradePapersInRange v = false → exec (.writeGrade h (.fields (g, v))) s =
      .next (answered h src 3 (.refused .parameter .paperRange .none) s)) ∧
    (g < 32 → gradePapersInRange v = true → barred g v →
      exec (.writeGrade h (.fields (g, v))) s = .next (answered h src 3 (.refused .inUse .none .none) s)) ∧
    (g < 32 → gradePapersInRange v = true → ¬barred g v →
      exec (.writeGrade h (.fields (g, v))) s = .next (answered h src 3 (.accepted .none)
        (effect g { s with zr := { s.zr with grades := s.zr.grades.set g v } }))) ∧
    (∀ vs : List (Option Grade), (vs.length = 0 ∨ 8 < vs.length ∨ 32 < g + vs.length) →
      exec (.loadGrade h (.fields (g, vs))) s = .next (answered h src 4 (.refused .parameter .fieldRange .none) s)) ∧
    (∀ vs : List (Option Grade), 1 ≤ vs.length → vs.length ≤ 8 → g + vs.length ≤ 32 →
      let failing := vs.zipIdx.findSome? fun x =>
        if gradePapersInRange x.1 = false then some (Reply.refused .parameter .paperRange .none)
        else if barred (g + x.2) x.1 then some (.refused .inUse .none .none) else none
      (∀ r, failing = some r → exec (.loadGrade h (.fields (g, vs))) s = .next (answered h src 4 r s)) ∧
      (failing = none → exec (.loadGrade h (.fields (g, vs))) s = .next (answered h src 4 (.accepted .none)
        ((List.range vs.length).foldl (fun t i => effect (g + i) t) { s with zr := { s.zr with
          grades := vs.zipIdx.foldl (fun l x => l.set (g + x.2) x.1) s.zr.grades } }))))) ∧
  (∀ v : Option Grade, gradePapersInRange v = true ↔
    ∀ g, v = some g → ∀ p, some p ∈ g.papers → 1 ≤ p ∧ p ≤ 4095) ∧
  (∀ (g : Nat) (s : State), gradeInUse s g = true ↔
    (∃ z ∈ s.zr.zones, z.grade = some g) ∨ (∃ o ∈ s.os.orders, o.grade = g))

/-- MARK: WRONG_STATE in CONFIGURING, FIELD_RANGE for a length beyond the largest; otherwise a closed OPERATOR window is
claimed, and the claim's outcome is the answer: the new id, the id merged into, or FULL with the number of marks. -/
def Obligations.MarkClaimsAnOperatorWindow : Prop :=
  ∀ (h : ReqHeader) (src : MgmtSource) (w : WebPos) (length : Nat) (s : State), Reaches h src s →
    (s.me.running = false → exec (.mark h (.fields (w, length))) s =
      .next (answered h src 18 (.refused .wrongState .none .none) s)) ∧
    (s.me.running = true → 16777215 < length → exec (.mark h (.fields (w, length))) s =
      .next (answered h src 18 (.refused .parameter .fieldRange .none) s)) ∧
    (s.me.running = true → length ≤ 16777215 → ∀ t o,
      insertMark evaluate ⟨.window .operator .operator (.closed length), w, .exact 0⟩ s = (t, o) →
      exec (.mark h (.fields (w, length))) s = .next (answered h src 18
        (match o with
          | .admitted id => .accepted (.mark id false)
          | .merged id => .accepted (.mark id true)
          | .refused => .refused .full .none (.marks s.sm.marks.length)) t))

/-- TRIGGER_SET, by the checks of R199 in their order: WRONG_STATE in CONFIGURING; FIELD_RANGE for a trigger or group tag out of
range (a code outside its names as well, log entry 31); the held request's own range checks and NOT_TRIGGERABLE; NOT_PERMITTED
for what the panel may not hold (looked at ahead of the others in a request of the panel, log entry 14); LINE_PASSED; NOT_FOUND
and TOO_LATE for an event that cannot come; DUPLICATE; FULL; otherwise the entry takes the lowest free index. TRIGGER_CLEAR
removes the entry it names, or every entry of a tag, of the requesting source alone; an index beyond the table and a tag outside
1 to 7 are FIELD_RANGE (log entry 39). An event in RUNNING is matched in index order against the entries present at their turn
(R201). A match removes its entry, takes the held request as its source's, and reports DONE, or REFUSED, or, where its tag has
further entries, removes them and reports BROKEN (R202). Feed starts a firing gives are matched after it. A TRIGGER report has
the fields of R202. -/
def Obligations.TriggerEntriesAreSetAndCleared : Prop :=
  (∀ (h : ReqHeader) (src : MgmtSource) (s : State), Reaches h src s →
    (∀ form tag ht held, s.me.running = false → (src = .panel → panelForbidsHeld held = false) →
      exec (.triggerSet h (.fields (form, tag, ht, held))) s =
        .next (answered h src 19 (.refused .wrongState .none .none) s)) ∧
    (∀ form tag ht held, src = .panel → panelForbidsHeld held = true →
      exec (.triggerSet h (.fields (form, tag, ht, held))) s =
        .next (answered h src 19 (.refused .notPermitted .none .none) s)) ∧
    (∀ form t tag ht held i, s.me.running = true → namedTrigger form = some t → tag ≤ 7 → heldRefusal held = none →
      (src = .panel → panelForbidsHeld held = false) → eventRefusal s t = none → equalEntry s t held = false →
      freeTrigger s = some i → exec (.triggerSet h (.fields (form, tag, ht, held))) s =
        .next (answered h src 19 (.accepted (.entryIndex i)) { s with me := { s.me with
          triggers := s.me.triggers.set i
            (some { trigger := t, heldTag := ht, held := held, source := src, tag := tag }) } })) ∧
    (∀ i e, i < 8 → triggerAt s i = some e → e.source = src → exec (.triggerClear h (.fields (.index i))) s =
      .next (answered h src 20 (.accepted (.indices [i]))
        { s with me := { s.me with triggers := s.me.triggers.set i none } })) ∧
    (∀ i e, i < 8 → triggerAt s i = some e → e.source ≠ src → exec (.triggerClear h (.fields (.index i))) s =
      .next (answered h src 20 (.refused .notPermitted .none .none) s)) ∧
    (∀ i, i < 8 → triggerAt s i = none → exec (.triggerClear h (.fields (.index i))) s =
      .next (answered h src 20 (.refused .notFound .none .none) s)) ∧
    (∀ t, 1 ≤ t → t ≤ 7 →
      let is := ((groupEntries s t).filter fun g => g.2.source == src).map (·.1)
      (is = [] → exec (.triggerClear h (.fields (.tag t))) s =
        .next (answered h src 20 (.refused .notFound .none .none) s)) ∧
      (is ≠ [] → exec (.triggerClear h (.fields (.tag t))) s =
        .next (answered h src 20 (.accepted (.indices is)) (removeTriggers is s))))) ∧
  (∀ (h : ReqHeader) (src : MgmtSource) (form : TriggerForm) (tag : Nat) (ht : Byte) (held : HeldBody) (s : State),
    Reaches h src s → s.me.running = true → (src = .panel → panelForbidsHeld held = false) →
    let refused := fun (reply : Reply) => exec (.triggerSet h (.fields (form, tag, ht, held))) s = .next (answered h src 19 reply s)
    ((namedTrigger form = none ∨ 7 < tag) → refused (.refused .parameter .fieldRange .none)) ∧
    (∀ t, namedTrigger form = some t → tag ≤ 7 →
      (∀ reply, heldRefusal held = some reply → refused reply) ∧
      (heldRefusal held = none →
        (∀ c, t = .lineAt c → c ≤ s.pt.lineCount → refused (.refused .parameter .linePassed .none)) ∧
        (∀ o, t = .feedStart o → orderOf s o = none → refused (.refused .notFound .none .none)) ∧
        (∀ o x, t = .feedStart o → orderOf s o = some x → x.feed ≠ .queued → x.feed ≠ .next →
          refused (.refused .tooLate .none .none)) ∧
        (∀ o, t = .orderClosed o → orderOf s o = none → refused (.refused .notFound .none .none)) ∧
        (∀ k, t = .spliceDone k → s.sc.stands.length < k → refused (.refused .notFound .none .none)) ∧
        (eventRefusal s t = none → equalEntry s t held = true → refused (.refused .duplicate .none .none)) ∧
        (eventRefusal s t = none → equalEntry s t held = false → (∀ x ∈ s.me.triggers, x ≠ none) →
          refused (.refused .full .none .none))))) ∧
  (∀ (form : TriggerForm) (held : HeldBody),
    (namedTrigger form = match form with
      | .lineAt c => some (.lineAt c)
      | .feedStart o => some (.feedStart o)
      | .orderClosed o => some (.orderClosed o)
      | .spliceDone k => if 1 ≤ k ∧ k ≤ 5 then some (.spliceDone k) else none
      | .beyond _ => none) ∧
    (heldRefusal held = match held with
      | .mode (.beyond _) => some (.refused .parameter .fieldRange .none)
      | .mark _ l => if 16777215 < l then some (.refused .parameter .fieldRange .none) else none
      | .latchClear n ls => if 16 ≤ n ∨ ls.foreign = true then some (.refused .parameter .fieldRange .none) else none
      | .other _ => some (.refused .parameter .notTriggerable .none)
      | _ => none)) ∧
  (∀ (p : Trigger → Bool) (s : State),
    (s.me.running = false → handEvent p s = s) ∧ (s.me.running = true → handEvent p s = matchEvent 9 p s)) ∧
  (∀ (i : Nat) (s : State), triggerAt s i = (s.me.triggers[i]?).join) ∧
  (∀ (f : Nat) (p : Trigger → Bool) (s : State), matchEvent (f + 1) p s = (List.range 8).foldl (fun t i =>
    match triggerAt t i with
    | none => t
    | some e =>
      if p e.trigger = true then
        let fired := fireEntry i e t
        fired.me.feedStarts.foldl (fun u o => matchEvent f (fun x => x == .feedStart o) u)
          { fired with me := { fired.me with feedStarts := [] } }
      else t) s) ∧
  (∀ (i : Nat) (e : TriggerEntry) (s : State),
    let x := executeHeld (fun u => evaluateCommit (evaluateFirst u)) e.source e.held { s with me := { s.me with triggers := s.me.triggers.set i none } }
    let rest := if e.tag = 0 then [] else groupEntries x.1 e.tag
    (∀ b, x.2 = .accepted b → fireEntry i e s = triggerReport i e .done (some x.2) x.1) ∧
    (∀ r d y, x.2 = .refused r d y → rest = [] → fireEntry i e s = triggerReport i e .refused (some x.2) x.1) ∧
    (∀ r d y, x.2 = .refused r d y → rest ≠ [] → fireEntry i e s =
      triggerReport i e (.broken (rest.map fun g => (g.1, g.2.trigger, g.2.held.code))) (some x.2)
        (rest.foldl (fun t g => { t with me := { t.me with triggers := t.me.triggers.set g.1 none } }) x.1))) ∧
  (∀ (ev : State → State) (src : MgmtSource) (b : HeldBody) (s : State), executeHeld ev src b s =
    if src = .panel ∧ panelForbidsHeld b = true then (s, .refused .notPermitted .none .none)
    else match b with
      | .mode m => ruleMode ev m s
      | .spliceNow k => ruleSpliceNow ev k s
      | .mark w l => ruleMark ev w l s
      | .orderFront o => ruleOrderFront ev o s
      | .latchClear n ls => ruleLatchClear n ls s
      | .other _ => (s, .refused .parameter .notTriggerable .none)) ∧
  (∀ (h : ReqHeader) (src : MgmtSource) (s : State), Reaches h src s →
    (∀ i, 8 ≤ i → exec (.triggerClear h (.fields (.index i))) s =
      .next (answered h src 20 (.refused .parameter .fieldRange .none) s)) ∧
    (∀ t, (t = 0 ∨ 7 < t) → exec (.triggerClear h (.fields (.tag t))) s =
      .next (answered h src 20 (.refused .parameter .fieldRange .none) s))) ∧
  (∀ (t : Trigger) (b : HeldBody) (s : State),
    (∀ i, freeTrigger s = some i ↔
      i < s.me.triggers.length ∧ triggerAt s i = none ∧ ∀ j < i, triggerAt s j ≠ none) ∧
    (equalEntry s t b = true ↔ ∃ e, some e ∈ s.me.triggers ∧ e.trigger = t ∧ e.held = b) ∧
    (panelForbidsHeld b = true ↔ b = .mode (.named .single) ∨ b = .mode (.named .auto) ∨ (∃ o, b = .orderFront o) ∨
      ∃ c, b = .other c ∧ c ∈ [5, 6, 8, 9, 10, 11]) ∧
    (eventRefusal s t = none ↔ match t with
      | .lineAt c => s.pt.lineCount < c
      | .feedStart o => ∃ x, orderOf s o = some x ∧ (x.feed = .queued ∨ x.feed = .next)
      | .orderClosed o => orderOf s o ≠ none
      | .spliceDone k => k ≤ s.sc.stands.length)) ∧
  (∀ (i : Nat) (tag : Nat) (is : List Nat) (s : State),
    triggerAt s i = (s.me.triggers[i]?).join ∧
    groupEntries s tag = ((List.range s.me.triggers.length).filterMap fun i => match triggerAt s i with
      | some e => if e.tag = tag then some (i, e) else none
      | none => none) ∧
    removeTriggers is s = { s with me := { s.me with triggers := is.foldl (fun l i => l.set i none) s.me.triggers } }) ∧
  (∀ (i : Nat) (e : TriggerEntry) (o : TriggerOutcome) (r : Option Reply) (s : State),
    triggerReport i e o r s = report (.trigger { index := i, entry := e, outcome := o, reply := r }) s)

/-! ## START and RESTART -/

/-- A START of the supervisor is refused by the first failing check of R194, with its subject, of several the lowest number, and
for grades the first in queue order (log entry 66): WRONG_STATE in RUNNING, or for a stand with a swap owed; ROLE_MISSING for a
required role in no entry; NO_ACTIVE_ROLL for a stand, or 0 with no stands; the geometry checks of Table 1-2; ROLE_MISSING for a
placed zone without its station; GRADE_EMPTY for an order's grade. One that passes is ACCEPTED with the effects of R195 in their
order: RUNNING at line count 0, the stand addresses, the LINE_REQUEST of the sets, the knives FAULTED or IDLE by their words
(log entry 26), the cutoff's CLEAR and GATE REJECT at once with no last change, the zones' station faults, an evaluation. The
last sequence, speed and stopped state, the tables and the cut intake stay. -/
def Obligations.StartEntersRunning : Prop :=
  (∀ (h : ReqHeader) (s : State), Reaches h .supervisor s →
    (s.me.running = true → exec (.start h (.fields ())) s =
      .next (answered h .supervisor 5 (.refused .wrongState .none .none) s)) ∧
    (startRefusal s = none → ∃ t, exec (.start h (.fields ())) s =
        .next (answered h .supervisor 5 (.accepted .none) t) ∧
      t = startEffects s ∧ t.me.running = true ∧ t.pt.lineCount = 0 ∧ t.pt.lastSeq = s.pt.lastSeq ∧
      t.pt.speed = s.pt.speed ∧ t.pt.stopped = s.pt.stopped ∧ t.pt.geometry = s.pt.geometry ∧
      t.sm.spans = s.sm.spans ∧ t.zr.grades = s.zr.grades ∧ t.zr.profiles = s.zr.profiles ∧
      t.ri.stations = s.ri.stations ∧ t.cs.lastSeq = s.cs.lastSeq)) ∧
  (∀ (h : ReqHeader) (x : Reply) (s : State), Reaches h .supervisor s → startRefusal s = some x →
    exec (.start h (.fields ())) s = .next (answered h .supervisor 5 x s)) ∧
  (∀ s : State,
    let bad := fun (d : Detail) (x : Subject) => Reply.refused .parameter d x
    let stands := (List.range s.sc.stands.length).map (· + 1)
    let stand := fun (ok : Stand → Bool) => stands.find? fun k => !((standOf s k).map ok).getD true
    let zone := fun (ok : Zone → Bool) => (placedZones s).find? fun n => !((zoneOf s n).map ok).getD true
    let g := s.pt.geometry
    let within := fun (offset : Nat) => decide (0 < offset ∧ offset < g.knifeAOffset)
    let roles := [Role.encoder, .drive, .supervisor, .cutoff, .gate, .stacker, .knifeA, .knifeB] ++ stands.map Role.stand
    let inOrder := g.knifeAOffset < g.knifeBOffset ∧ g.knifeBOffset < g.cutoffOffset ∧ g.cutoffOffset < g.gateOffset
    let served := fun (z : Zone) => match z.station.bind (stationAt s) with
      | some e => e.2.role == .zone
      | none => false
    startRefusal s = [
      if s.me.running = true then some (.refused .wrongState .none .none) else none,
      (stand fun r => !r.splice.swapOwed).map fun k => .refused .wrongState .none (.stand k),
      (roles.find? fun r => (stationIn s r).isNone).map fun r => bad .roleMissing (.role r),
      (if s.sc.stands.length = 0 then some 0 else stand fun r => r.active.isSome).map fun k => bad .noActiveRoll (.stand k),
      (zone fun z => within z.offset).map fun n => bad .offsetOrder (.zone n),
      if inOrder then none else some (bad .offsetOrder .none),
      (stand fun r => within r.effOffset).map fun k => bad .offsetOrder (.stand k),
      if g.gateOffset ≤ g.cutoffOffset + 12000 then none else some (bad .gateFar .none),
      if g.knifeLead ≤ g.knifeAOffset + g.dPre then none else some (bad .leadLong .none),
      if g.cutoffLead ≤ g.cutoffOffset + g.dPre then none else some (bad .leadLong .none),
      (zone fun z => decide (z.rampLead ≤ z.offset + g.dPre)).map fun n => bad .leadLong (.zone n),
      (stand fun r => decide (r.spliceLead ≤ r.effOffset + g.dPre)).map fun k => bad .leadLong (.stand k),
      (zone served).map fun n => bad .roleMissing (.zone n),
      (s.os.orders.find? fun o => (gradeOf s o.grade).isNone).map fun o => bad .gradeEmpty (.grade o.grade)
    ].findSome? id) ∧
  (∀ s : State,
    let entered := { s with pt := { s.pt with lineCount := 0 }, me := { s.me with running := true } }
    let addressed := ((List.range s.sc.stands.length).map (· + 1)).foldl (fun t k =>
      modStand k (fun r => { r with address := (stationIn t (.stand k)).map (·.address) }) t) entered
    let asked := direct .drive (.lineRequest (startRequest addressed)) addressed
    let knife := fun (k : KnifeId) (t : State) => modKnife k (fun r => { r with
      state := if (roleWord t (knifeRole k)).getLsbD 3 = true then .faulted else .idle }) t
    let examined := knife .b (knife .a asked)
    let cleared := direct .cutoff (.cutPlan .clear) { examined with cs := { examined.cs with prevWc := none, plan := [] } }
    let gated := direct .gate (.gate true .atOnce) cleared
    let word : State → Nat → Word16 := fun t n =>
      (((zoneOf t n).bind (·.station)).bind fun a => (stationAt t a).map fun e => e.2.word).getD 0
    let set := { gated with cs := { gated.cs with gate := ⟨true, none⟩ } }
    startEffects s = evaluate ((placedZones set).foldl (fun t n =>
      if (word t n).getLsbD 3 = true then
        let live := modTrip n (fun x => { x with stationFault := true }) t
        if (tripOf t n).live.cutout = true then live else raiseLevel evaluate n .cutout none none live
      else t) set))

/-- A RESTART in RUNNING is ACCEPTED and leaves CONFIGURING: the map empty, the queued and NEXT orders alone, HOLD with cause
RESTART, no held reason, compensation or credit, the tracker's intake at its power-on values, no tracking warning and no slow
holder, both knife stations IDLE with their held layout alone, the cut intake, plan, gate, stacks and cut counters at their
power-on values, every splice IDLE, with a swap owed where it was PASTING or one was owed, every zone IDLE with no setpoint,
every live flag, window reference, standby timer and held flag cleared, the trigger table empty. Line count, geometry, reject
spans, mark id counter, grades, profiles, stations, every stand's rolls with their carry, every latched flag and last reading,
the stack counter, the trip counters and the ring interface but for its directives and reports stay, as does the transfer
position (log entry 8). The reports are the abandoned orders', the stacks', current before deck, and the splices' of PENDING to
MATCHED; the directives, in the flushed queue, LIFT at once to each station that was ENGAGED, A before B, and ABORT to each
stand ACCELERATING or MATCHED; stands in number order (log entry 64). With at most the five stands of a configuration the queue
has room for them, so the stop causes and the hold cause stay as said. In CONFIGURING it is WRONG_STATE. -/
def Obligations.RestartLeavesRunning : Prop :=
  (∀ (h : ReqHeader) (s : State), Reaches h .supervisor s →
    (s.me.running = false → exec (.restart h (.fields ())) s =
      .next (answered h .supervisor 6 (.refused .wrongState .none .none) s)) ∧
    (s.me.running = true → ∃ t, exec (.restart h (.fields ())) s =
        .next (answered h .supervisor 6 (.accepted .none) t) ∧ t = restartEffects s ∧
      t.me.running = false ∧ t.sm.marks = [] ∧
      t.os.orders.map (·.id) = (s.os.orders.filter fun o => o.feed == .queued || o.feed == .next).map (·.id) ∧
      t.os.mode = .hold ∧ t.os.heldReason = none ∧ t.os.compensation = 0 ∧ t.os.credits = [] ∧
      t.pt.trackingWarned = false ∧ t.pt.lastSeq = none ∧ t.pt.speed = 0 ∧ t.pt.stopped = true ∧ t.pt.lostTallies = 0 ∧
      t.pt.lineCount = s.pt.lineCount ∧ t.pt.geometry = s.pt.geometry ∧ t.sm.spans = s.sm.spans ∧
      t.zr.grades = s.zr.grades ∧ t.zr.profiles = s.zr.profiles ∧ t.ri.stations = s.ri.stations ∧
      t.me.triggers = List.replicate 8 none ∧ t.sm.nextId = s.sm.nextId ∧
      t.pt.slow = [] ∧ t.sc.stands.map (fun r => (r.active, r.carry, r.standby)) =
        s.sc.stands.map (fun r => (r.active, r.carry, r.standby)) ∧
      t.ts.zones.map (fun x => (x.latched, x.lastReading)) = s.ts.zones.map (fun x => (x.latched, x.lastReading)) ∧
      (s.sc.stands.length ≤ 5 → t.pt.stop = s.pt.stop ∧ t.os.holdCause = .restart ∧ t.ri.directives =
        ([KnifeId.a, .b].filter fun k => (knifeOf s k).state == .engaged).map
          (fun k => ⟨roleAddress s (knifeRole k), .lift .atOnce⟩) ++
        (s.sc.stands.filter fun r => r.splice.state == .accelerating || r.splice.state == .matched).map
          (fun r => ⟨r.address.getD 0, .abort⟩)))) ∧
  (∀ s : State,
    let t := restartEffects s
    let idle := fun (r : KnifeRecord) => { r with
      state := .idle, served := [], boardPresent := false, lift := none, engage := none, window := none, lateRefused := false }
    t.kc = { a := idle s.kc.a, b := idle s.kc.b } ∧
    t.cs = { lastSeq := none, prevWc := none, plan := [], gate := ⟨true, none⟩, stackCounter := s.cs.stackCounter,
             counters := ⟨0, 0, 0, 0, 0, 0, 0⟩,
             stacker := { transferring := false, current := none, deck := none, faulted := false, timer := none,
                          position := s.cs.stacker.position } } ∧
    t.sc.stands = s.sc.stands.map (fun r => { r with
      jointRef := none, mismatch := none,
      splice := { idleSplice with
        swapOwed := r.splice.swapOwed || r.splice.state == .pasting,
        pasteTimer := if r.splice.state = .pasting then r.splice.pasteTimer else none } }) ∧
    t.zr.zones = s.zr.zones.map (fun z => { z with
      run := .idle, grade := none, current := none, ramp := none, returnValue := none, lastApproach := none,
      priorGrade := none, priorTarget := none }) ∧
    t.ts = { s.ts with zones := s.ts.zones.map fun x =>
      { live := ⟨false, false, false⟩, latched := x.latched, readingPart := false, stationFault := false,
        windows := ⟨none, none, none⟩, timer := none, held := false, lastReading := x.lastReading } } ∧
    t.os.orders = (s.os.orders.filter fun o => o.feed == .queued || o.feed == .next).map (fun o => { o with
      feed := .queued, startW := none, planned := none, endW := none, released := 0, committedBefore := false,
      cancelPending := false }) ∧
    t.pt = { s.pt with
      lastSeq := none, speed := 0, stopped := true, lostTallies := 0, trackingWarned := false, slow := [],
      stop := t.pt.stop } ∧
    t.sm = { s.sm with marks := [], insertion := [] } ∧
    t.me = { s.me with running := false, triggers := List.replicate 8 none, feedStarts := [] } ∧
    t.ri = { s.ri with
      directives := t.ri.directives, discardedDirectives := t.ri.discardedDirectives, reports := t.ri.reports,
      reportNumber := t.ri.reportNumber, reportsLost := t.ri.reportsLost } ∧
    t.freeIndex = s.freeIndex) ∧
  (∀ s : State,
    let left := { s with
      ri := { s.ri with directives := [] }, me := { s.me with running := false }, sm := { s.sm with marks := [], insertion := [] },
      pt := { s.pt with
        lastSeq := none, speed := 0, stopped := true, lostTallies := 0, trackingWarned := false, slow := [] } }
    let fed := s.os.orders.filter fun o => o.feed == .feeding || o.feed == .committed || o.feed == .fed
    let told := fed.foldl (fun t o => report (.order o .abandoned) t) left
    (ordersRestart left).ri = told.ri ∧
    (∀ (k : KnifeId) (t : State), knifeRestart k t = modKnife k (fun r => { idleKnife with held := r.held })
      (if (knifeOf t k).state = .engaged then direct (knifeRole k) (.lift .atOnce) t else t)) ∧
    (∀ t : State,
      let abandon := fun (x : Option Stack) (u : State) => match x with
        | some k => stackReport k .abandoned u
        | none => u
      (cutsRestart t).ri = (abandon t.cs.stacker.deck (abandon t.cs.stacker.current t)).ri) ∧
    (∀ (k : Nat) (r : Stand) (t : State), standOf t k = some r →
      let ended := if r.splice.state = .accelerating ∨ r.splice.state = .matched then directStand k .abort t else t
      let cleared := modStand k (fun x => { x with
        jointRef := none, mismatch := none,
        splice := { idleSplice with
          swapOwed := x.splice.swapOwed || x.splice.state == .pasting,
          pasteTimer := if x.splice.state = .pasting then x.splice.pasteTimer else none } }) ended
      spliceRestart k t =
        if r.splice.state = .idle ∨ r.splice.state = .fault ∨ r.splice.state = .pasting then cleared
        else spliceReport k r .abandoned none none none cleared) ∧
    (∀ t : State, splicesRestart t =
      ((List.range t.sc.stands.length).map (· + 1)).foldl (fun u k => spliceRestart k u) t) ∧
    restartEffects s = triggersRestart (tripsRestart (zonesRestart (splicesRestart (cutsRestart
      (knifeRestart .b (knifeRestart .a (ordersRestart left))))))))

/-! ## Frames and invariants -/

/-- The line's own requests complete with one answer, and beside it leave the frame as it was, whatever they do to orders,
knives, splices, zones, trips, trigger entries, the map and the directive and report queues. -/
def Obligations.LineRequestsKeepTheFrame : Prop :=
  ∀ (h : ReqHeader) (src : MgmtSource) (b : Body) (s : State), Reaches h src s →
    (b.code = 7 ∨ (8 ≤ b.code ∧ b.code ≤ 20)) →
    ∃ t reply, exec (.receiveFrame (.request h (.body b))) s = .next (answered h src (BitVec.ofNat 8 b.code) reply t) ∧
      SameFrame s t

/-- The expiries of the four timers leave the frame as it was. -/
def Obligations.TimersKeepTheFrame : Prop :=
  ∀ (c : Instr) (s t : State), (∃ k, c = .accelTimeout k ∨ c = .pasteTimeout k ∨ c = .standbyTimeout k ∨ c = .transferTimeout) →
    exec c s = .next t → SameFrame s t

/-- An observed TALLY, READING, STATE or CUT frame leaves the own address, the answers, the frame faults count (of the ring's
counts that one alone: a full forwarding buffer raises the overruns), the geometry, the reject spans, the grade and profile
tables, the stands' and zones' settings, the part state and the request-discard count as they were, and the frame held at the
transmit pin, which is the model's (log entry 9). -/
def Obligations.ObservedFramesKeepTheTables : Prop :=
  ∀ (c : Instr) (s t : State), s.passive = false →
    (∃ h a b d, c = .tally h a d ∨ c = .reading h d a ∨ c = .stateFrame h a b ∨ c = .cut h a d) →
    exec c s = .next t →
    t.ri.ownAddress = s.ri.ownAddress ∧ t.ri.answers = s.ri.answers ∧ t.ri.frameFaults = s.ri.frameFaults ∧
    t.ri.txPin = s.ri.txPin ∧ t.pt.geometry = s.pt.geometry ∧ t.sm.spans = s.sm.spans ∧ t.zr.grades = s.zr.grades ∧
    t.zr.profiles = s.zr.profiles ∧ t.sc.stands.map standSettings = s.sc.stands.map standSettings ∧
    t.zr.zones.map restartedZone = s.zr.zones.map restartedZone ∧ t.me.running = s.me.running ∧
    t.me.discards = s.me.discards

/-- The laws of Safety.lean, which the next statement names one by one, hold right after reset. -/
def Obligations.LawsHoldAtReset : Prop := Safe State.reset

/-- Every step keeps the laws: the directive queue's bounds and its one LINE_REQUEST and one SETPOINT for a zone, the report
queue's size, the order queue's size, the map in ascending web position and empty in CONFIGURING, every uncertainty and carry in
its range, the forwarding buffer's size, one answer in a slot, the holding slots, the line count's range and the sizes of the
tables; at most 128 marks, no two of one id, at most 122 that are not joints, each joint the one its stand refers to (so at most
one for a stand) and none referred to while the stand's splice is from ARMED to PASTING; no two orders of one number and make-up
index, at most one FEEDING or COMMITTED, at most one NEXT and only beside a COMMITTED one; no roll id on two arms; and every
live trip flag latched. -/
def Obligations.EveryStepKeepsTheLaws : Prop := ∀ s t : State, Safe s → step s = .next t → Safe t
end

