-- ==== Sys2Proof/Laws/State.lean ====
section
/-! SUPPORT. The state after each named update, block by block: one lemma per block per update, true by rfl, so that no proof
unfolds a record update. -/

namespace Sys2Proof.Machine

@[simp] theorem modZone_ri (n : Nat) (f : Zone → Zone) (s : State) : (modZone n f s).ri = s.ri := rfl
@[simp] theorem modZone_pt (n : Nat) (f : Zone → Zone) (s : State) : (modZone n f s).pt = s.pt := rfl
@[simp] theorem modZone_sm (n : Nat) (f : Zone → Zone) (s : State) : (modZone n f s).sm = s.sm := rfl
@[simp] theorem modZone_os (n : Nat) (f : Zone → Zone) (s : State) : (modZone n f s).os = s.os := rfl
@[simp] theorem modZone_kc (n : Nat) (f : Zone → Zone) (s : State) : (modZone n f s).kc = s.kc := rfl
@[simp] theorem modZone_cs (n : Nat) (f : Zone → Zone) (s : State) : (modZone n f s).cs = s.cs := rfl
@[simp] theorem modZone_sc (n : Nat) (f : Zone → Zone) (s : State) : (modZone n f s).sc = s.sc := rfl
@[simp] theorem modZone_zr (n : Nat) (f : Zone → Zone) (s : State) : (modZone n f s).zr = { s.zr with zones := s.zr.zones.modify n f } := rfl
@[simp] theorem modZone_ts (n : Nat) (f : Zone → Zone) (s : State) : (modZone n f s).ts = s.ts := rfl
@[simp] theorem modZone_me (n : Nat) (f : Zone → Zone) (s : State) : (modZone n f s).me = s.me := rfl
@[simp] theorem modZone_freeIndex (n : Nat) (f : Zone → Zone) (s : State) : (modZone n f s).freeIndex = s.freeIndex := rfl
@[simp] theorem modZone_pending (n : Nat) (f : Zone → Zone) (s : State) : (modZone n f s).pending = s.pending := rfl

@[simp] theorem modTrip_ri (n : Nat) (f : ZoneTrip → ZoneTrip) (s : State) : (modTrip n f s).ri = s.ri := rfl
@[simp] theorem modTrip_pt (n : Nat) (f : ZoneTrip → ZoneTrip) (s : State) : (modTrip n f s).pt = s.pt := rfl
@[simp] theorem modTrip_sm (n : Nat) (f : ZoneTrip → ZoneTrip) (s : State) : (modTrip n f s).sm = s.sm := rfl
@[simp] theorem modTrip_os (n : Nat) (f : ZoneTrip → ZoneTrip) (s : State) : (modTrip n f s).os = s.os := rfl
@[simp] theorem modTrip_kc (n : Nat) (f : ZoneTrip → ZoneTrip) (s : State) : (modTrip n f s).kc = s.kc := rfl
@[simp] theorem modTrip_cs (n : Nat) (f : ZoneTrip → ZoneTrip) (s : State) : (modTrip n f s).cs = s.cs := rfl
@[simp] theorem modTrip_sc (n : Nat) (f : ZoneTrip → ZoneTrip) (s : State) : (modTrip n f s).sc = s.sc := rfl
@[simp] theorem modTrip_zr (n : Nat) (f : ZoneTrip → ZoneTrip) (s : State) : (modTrip n f s).zr = s.zr := rfl
@[simp] theorem modTrip_ts (n : Nat) (f : ZoneTrip → ZoneTrip) (s : State) : (modTrip n f s).ts = { s.ts with zones := s.ts.zones.modify n f } := rfl
@[simp] theorem modTrip_me (n : Nat) (f : ZoneTrip → ZoneTrip) (s : State) : (modTrip n f s).me = s.me := rfl
@[simp] theorem modTrip_freeIndex (n : Nat) (f : ZoneTrip → ZoneTrip) (s : State) : (modTrip n f s).freeIndex = s.freeIndex := rfl
@[simp] theorem modTrip_pending (n : Nat) (f : ZoneTrip → ZoneTrip) (s : State) : (modTrip n f s).pending = s.pending := rfl

@[simp] theorem modOrder_ri (id : OrderId) (f : Order → Order) (s : State) : (modOrder id f s).ri = s.ri := rfl
@[simp] theorem modOrder_pt (id : OrderId) (f : Order → Order) (s : State) : (modOrder id f s).pt = s.pt := rfl
@[simp] theorem modOrder_sm (id : OrderId) (f : Order → Order) (s : State) : (modOrder id f s).sm = s.sm := rfl
@[simp] theorem modOrder_os (id : OrderId) (f : Order → Order) (s : State) : (modOrder id f s).os = { s.os with orders := s.os.orders.map fun o => if o.id == id then f o else o } := rfl
@[simp] theorem modOrder_kc (id : OrderId) (f : Order → Order) (s : State) : (modOrder id f s).kc = s.kc := rfl
@[simp] theorem modOrder_cs (id : OrderId) (f : Order → Order) (s : State) : (modOrder id f s).cs = s.cs := rfl
@[simp] theorem modOrder_sc (id : OrderId) (f : Order → Order) (s : State) : (modOrder id f s).sc = s.sc := rfl
@[simp] theorem modOrder_zr (id : OrderId) (f : Order → Order) (s : State) : (modOrder id f s).zr = s.zr := rfl
@[simp] theorem modOrder_ts (id : OrderId) (f : Order → Order) (s : State) : (modOrder id f s).ts = s.ts := rfl
@[simp] theorem modOrder_me (id : OrderId) (f : Order → Order) (s : State) : (modOrder id f s).me = s.me := rfl
@[simp] theorem modOrder_freeIndex (id : OrderId) (f : Order → Order) (s : State) : (modOrder id f s).freeIndex = s.freeIndex := rfl
@[simp] theorem modOrder_pending (id : OrderId) (f : Order → Order) (s : State) : (modOrder id f s).pending = s.pending := rfl

@[simp] theorem stopClaim_ri (c : HoldCause) (s : State) : (stopClaim c s).ri = s.ri := rfl
@[simp] theorem stopClaim_pt (c : HoldCause) (s : State) : (stopClaim c s).pt = s.pt := rfl
@[simp] theorem stopClaim_sm (c : HoldCause) (s : State) : (stopClaim c s).sm = s.sm := rfl
@[simp] theorem stopClaim_os (c : HoldCause) (s : State) : (stopClaim c s).os = { s.os with mode := .hold, holdCause := c } := rfl
@[simp] theorem stopClaim_kc (c : HoldCause) (s : State) : (stopClaim c s).kc = s.kc := rfl
@[simp] theorem stopClaim_cs (c : HoldCause) (s : State) : (stopClaim c s).cs = s.cs := rfl
@[simp] theorem stopClaim_sc (c : HoldCause) (s : State) : (stopClaim c s).sc = s.sc := rfl
@[simp] theorem stopClaim_zr (c : HoldCause) (s : State) : (stopClaim c s).zr = s.zr := rfl
@[simp] theorem stopClaim_ts (c : HoldCause) (s : State) : (stopClaim c s).ts = s.ts := rfl
@[simp] theorem stopClaim_me (c : HoldCause) (s : State) : (stopClaim c s).me = s.me := rfl
@[simp] theorem stopClaim_freeIndex (c : HoldCause) (s : State) : (stopClaim c s).freeIndex = s.freeIndex := rfl
@[simp] theorem stopClaim_pending (c : HoldCause) (s : State) : (stopClaim c s).pending = s.pending := rfl

@[simp] theorem setDirectives_ri (q : List PlacedDirective) (s : State) : (setDirectives q s).ri = { s.ri with directives := q } := rfl
@[simp] theorem setDirectives_pt (q : List PlacedDirective) (s : State) : (setDirectives q s).pt = s.pt := rfl
@[simp] theorem setDirectives_sm (q : List PlacedDirective) (s : State) : (setDirectives q s).sm = s.sm := rfl
@[simp] theorem setDirectives_os (q : List PlacedDirective) (s : State) : (setDirectives q s).os = s.os := rfl
@[simp] theorem setDirectives_kc (q : List PlacedDirective) (s : State) : (setDirectives q s).kc = s.kc := rfl
@[simp] theorem setDirectives_cs (q : List PlacedDirective) (s : State) : (setDirectives q s).cs = s.cs := rfl
@[simp] theorem setDirectives_sc (q : List PlacedDirective) (s : State) : (setDirectives q s).sc = s.sc := rfl
@[simp] theorem setDirectives_zr (q : List PlacedDirective) (s : State) : (setDirectives q s).zr = s.zr := rfl
@[simp] theorem setDirectives_ts (q : List PlacedDirective) (s : State) : (setDirectives q s).ts = s.ts := rfl
@[simp] theorem setDirectives_me (q : List PlacedDirective) (s : State) : (setDirectives q s).me = s.me := rfl
@[simp] theorem setDirectives_freeIndex (q : List PlacedDirective) (s : State) : (setDirectives q s).freeIndex = s.freeIndex := rfl
@[simp] theorem setDirectives_pending (q : List PlacedDirective) (s : State) : (setDirectives q s).pending = s.pending := rfl

@[simp] theorem modMark_ri (id : MarkId) (f : Mark → Mark) (s : State) : (modMark id f s).ri = s.ri := rfl
@[simp] theorem modMark_pt (id : MarkId) (f : Mark → Mark) (s : State) : (modMark id f s).pt = s.pt := rfl
@[simp] theorem modMark_sm (id : MarkId) (f : Mark → Mark) (s : State) : (modMark id f s).sm = { s.sm with marks := s.sm.marks.map fun m => if m.id == id then f m else m } := rfl
@[simp] theorem modMark_os (id : MarkId) (f : Mark → Mark) (s : State) : (modMark id f s).os = s.os := rfl
@[simp] theorem modMark_kc (id : MarkId) (f : Mark → Mark) (s : State) : (modMark id f s).kc = s.kc := rfl
@[simp] theorem modMark_cs (id : MarkId) (f : Mark → Mark) (s : State) : (modMark id f s).cs = s.cs := rfl
@[simp] theorem modMark_sc (id : MarkId) (f : Mark → Mark) (s : State) : (modMark id f s).sc = s.sc := rfl
@[simp] theorem modMark_zr (id : MarkId) (f : Mark → Mark) (s : State) : (modMark id f s).zr = s.zr := rfl
@[simp] theorem modMark_ts (id : MarkId) (f : Mark → Mark) (s : State) : (modMark id f s).ts = s.ts := rfl
@[simp] theorem modMark_me (id : MarkId) (f : Mark → Mark) (s : State) : (modMark id f s).me = s.me := rfl
@[simp] theorem modMark_freeIndex (id : MarkId) (f : Mark → Mark) (s : State) : (modMark id f s).freeIndex = s.freeIndex := rfl
@[simp] theorem modMark_pending (id : MarkId) (f : Mark → Mark) (s : State) : (modMark id f s).pending = s.pending := rfl

@[simp] theorem dropCredit_ri (id : MarkId) (s : State) : (dropCredit id s).ri = s.ri := rfl
@[simp] theorem dropCredit_pt (id : MarkId) (s : State) : (dropCredit id s).pt = s.pt := rfl
@[simp] theorem dropCredit_sm (id : MarkId) (s : State) : (dropCredit id s).sm = s.sm := rfl
@[simp] theorem dropCredit_os (id : MarkId) (s : State) : (dropCredit id s).os = { s.os with credits := s.os.credits.filter fun c => c.mark != id } := rfl
@[simp] theorem dropCredit_kc (id : MarkId) (s : State) : (dropCredit id s).kc = s.kc := rfl
@[simp] theorem dropCredit_cs (id : MarkId) (s : State) : (dropCredit id s).cs = s.cs := rfl
@[simp] theorem dropCredit_sc (id : MarkId) (s : State) : (dropCredit id s).sc = s.sc := rfl
@[simp] theorem dropCredit_zr (id : MarkId) (s : State) : (dropCredit id s).zr = s.zr := rfl
@[simp] theorem dropCredit_ts (id : MarkId) (s : State) : (dropCredit id s).ts = s.ts := rfl
@[simp] theorem dropCredit_me (id : MarkId) (s : State) : (dropCredit id s).me = s.me := rfl
@[simp] theorem dropCredit_freeIndex (id : MarkId) (s : State) : (dropCredit id s).freeIndex = s.freeIndex := rfl
@[simp] theorem dropCredit_pending (id : MarkId) (s : State) : (dropCredit id s).pending = s.pending := rfl

@[simp] theorem modCounters_ri (f : CutCounters → CutCounters) (s : State) : (modCounters f s).ri = s.ri := rfl
@[simp] theorem modCounters_pt (f : CutCounters → CutCounters) (s : State) : (modCounters f s).pt = s.pt := rfl
@[simp] theorem modCounters_sm (f : CutCounters → CutCounters) (s : State) : (modCounters f s).sm = s.sm := rfl
@[simp] theorem modCounters_os (f : CutCounters → CutCounters) (s : State) : (modCounters f s).os = s.os := rfl
@[simp] theorem modCounters_kc (f : CutCounters → CutCounters) (s : State) : (modCounters f s).kc = s.kc := rfl
@[simp] theorem modCounters_cs (f : CutCounters → CutCounters) (s : State) : (modCounters f s).cs = { s.cs with counters := f s.cs.counters } := rfl
@[simp] theorem modCounters_sc (f : CutCounters → CutCounters) (s : State) : (modCounters f s).sc = s.sc := rfl
@[simp] theorem modCounters_zr (f : CutCounters → CutCounters) (s : State) : (modCounters f s).zr = s.zr := rfl
@[simp] theorem modCounters_ts (f : CutCounters → CutCounters) (s : State) : (modCounters f s).ts = s.ts := rfl
@[simp] theorem modCounters_me (f : CutCounters → CutCounters) (s : State) : (modCounters f s).me = s.me := rfl
@[simp] theorem modCounters_freeIndex (f : CutCounters → CutCounters) (s : State) : (modCounters f s).freeIndex = s.freeIndex := rfl
@[simp] theorem modCounters_pending (f : CutCounters → CutCounters) (s : State) : (modCounters f s).pending = s.pending := rfl

@[simp] theorem setGate_ri (r : Bool) (w : Option WebPos) (s : State) : (setGate r w s).ri = s.ri := rfl
@[simp] theorem setGate_pt (r : Bool) (w : Option WebPos) (s : State) : (setGate r w s).pt = s.pt := rfl
@[simp] theorem setGate_sm (r : Bool) (w : Option WebPos) (s : State) : (setGate r w s).sm = s.sm := rfl
@[simp] theorem setGate_os (r : Bool) (w : Option WebPos) (s : State) : (setGate r w s).os = s.os := rfl
@[simp] theorem setGate_kc (r : Bool) (w : Option WebPos) (s : State) : (setGate r w s).kc = s.kc := rfl
@[simp] theorem setGate_cs (r : Bool) (w : Option WebPos) (s : State) : (setGate r w s).cs = { s.cs with gate := ⟨r, w⟩ } := rfl
@[simp] theorem setGate_sc (r : Bool) (w : Option WebPos) (s : State) : (setGate r w s).sc = s.sc := rfl
@[simp] theorem setGate_zr (r : Bool) (w : Option WebPos) (s : State) : (setGate r w s).zr = s.zr := rfl
@[simp] theorem setGate_ts (r : Bool) (w : Option WebPos) (s : State) : (setGate r w s).ts = s.ts := rfl
@[simp] theorem setGate_me (r : Bool) (w : Option WebPos) (s : State) : (setGate r w s).me = s.me := rfl
@[simp] theorem setGate_freeIndex (r : Bool) (w : Option WebPos) (s : State) : (setGate r w s).freeIndex = s.freeIndex := rfl
@[simp] theorem setGate_pending (r : Bool) (w : Option WebPos) (s : State) : (setGate r w s).pending = s.pending := rfl

@[simp] theorem modStacker_ri (f : Stacker → Stacker) (s : State) : (modStacker f s).ri = s.ri := rfl
@[simp] theorem modStacker_pt (f : Stacker → Stacker) (s : State) : (modStacker f s).pt = s.pt := rfl
@[simp] theorem modStacker_sm (f : Stacker → Stacker) (s : State) : (modStacker f s).sm = s.sm := rfl
@[simp] theorem modStacker_os (f : Stacker → Stacker) (s : State) : (modStacker f s).os = s.os := rfl
@[simp] theorem modStacker_kc (f : Stacker → Stacker) (s : State) : (modStacker f s).kc = s.kc := rfl
@[simp] theorem modStacker_cs (f : Stacker → Stacker) (s : State) : (modStacker f s).cs = { s.cs with stacker := f s.cs.stacker } := rfl
@[simp] theorem modStacker_sc (f : Stacker → Stacker) (s : State) : (modStacker f s).sc = s.sc := rfl
@[simp] theorem modStacker_zr (f : Stacker → Stacker) (s : State) : (modStacker f s).zr = s.zr := rfl
@[simp] theorem modStacker_ts (f : Stacker → Stacker) (s : State) : (modStacker f s).ts = s.ts := rfl
@[simp] theorem modStacker_me (f : Stacker → Stacker) (s : State) : (modStacker f s).me = s.me := rfl
@[simp] theorem modStacker_freeIndex (f : Stacker → Stacker) (s : State) : (modStacker f s).freeIndex = s.freeIndex := rfl
@[simp] theorem modStacker_pending (f : Stacker → Stacker) (s : State) : (modStacker f s).pending = s.pending := rfl

@[simp] theorem clearHeld_ri (s : State) : (clearHeld s).ri = s.ri := rfl
@[simp] theorem clearHeld_pt (s : State) : (clearHeld s).pt = s.pt := rfl
@[simp] theorem clearHeld_sm (s : State) : (clearHeld s).sm = s.sm := rfl
@[simp] theorem clearHeld_os (s : State) : (clearHeld s).os = { s.os with heldReason := none } := rfl
@[simp] theorem clearHeld_kc (s : State) : (clearHeld s).kc = s.kc := rfl
@[simp] theorem clearHeld_cs (s : State) : (clearHeld s).cs = s.cs := rfl
@[simp] theorem clearHeld_sc (s : State) : (clearHeld s).sc = s.sc := rfl
@[simp] theorem clearHeld_zr (s : State) : (clearHeld s).zr = s.zr := rfl
@[simp] theorem clearHeld_ts (s : State) : (clearHeld s).ts = s.ts := rfl
@[simp] theorem clearHeld_me (s : State) : (clearHeld s).me = s.me := rfl
@[simp] theorem clearHeld_freeIndex (s : State) : (clearHeld s).freeIndex = s.freeIndex := rfl
@[simp] theorem clearHeld_pending (s : State) : (clearHeld s).pending = s.pending := rfl

@[simp] theorem setMode_ri (m : Mode) (c : HoldCause) (s : State) : (setMode m c s).ri = s.ri := rfl
@[simp] theorem setMode_pt (m : Mode) (c : HoldCause) (s : State) : (setMode m c s).pt = s.pt := rfl
@[simp] theorem setMode_sm (m : Mode) (c : HoldCause) (s : State) : (setMode m c s).sm = s.sm := rfl
@[simp] theorem setMode_os (m : Mode) (c : HoldCause) (s : State) : (setMode m c s).os = { s.os with mode := m, holdCause := c } := rfl
@[simp] theorem setMode_kc (m : Mode) (c : HoldCause) (s : State) : (setMode m c s).kc = s.kc := rfl
@[simp] theorem setMode_cs (m : Mode) (c : HoldCause) (s : State) : (setMode m c s).cs = s.cs := rfl
@[simp] theorem setMode_sc (m : Mode) (c : HoldCause) (s : State) : (setMode m c s).sc = s.sc := rfl
@[simp] theorem setMode_zr (m : Mode) (c : HoldCause) (s : State) : (setMode m c s).zr = s.zr := rfl
@[simp] theorem setMode_ts (m : Mode) (c : HoldCause) (s : State) : (setMode m c s).ts = s.ts := rfl
@[simp] theorem setMode_me (m : Mode) (c : HoldCause) (s : State) : (setMode m c s).me = s.me := rfl
@[simp] theorem setMode_freeIndex (m : Mode) (c : HoldCause) (s : State) : (setMode m c s).freeIndex = s.freeIndex := rfl
@[simp] theorem setMode_pending (m : Mode) (c : HoldCause) (s : State) : (setMode m c s).pending = s.pending := rfl

@[simp] theorem setTrigger_ri (i : Nat) (e : Option TriggerEntry) (s : State) : (setTrigger i e s).ri = s.ri := rfl
@[simp] theorem setTrigger_pt (i : Nat) (e : Option TriggerEntry) (s : State) : (setTrigger i e s).pt = s.pt := rfl
@[simp] theorem setTrigger_sm (i : Nat) (e : Option TriggerEntry) (s : State) : (setTrigger i e s).sm = s.sm := rfl
@[simp] theorem setTrigger_os (i : Nat) (e : Option TriggerEntry) (s : State) : (setTrigger i e s).os = s.os := rfl
@[simp] theorem setTrigger_kc (i : Nat) (e : Option TriggerEntry) (s : State) : (setTrigger i e s).kc = s.kc := rfl
@[simp] theorem setTrigger_cs (i : Nat) (e : Option TriggerEntry) (s : State) : (setTrigger i e s).cs = s.cs := rfl
@[simp] theorem setTrigger_sc (i : Nat) (e : Option TriggerEntry) (s : State) : (setTrigger i e s).sc = s.sc := rfl
@[simp] theorem setTrigger_zr (i : Nat) (e : Option TriggerEntry) (s : State) : (setTrigger i e s).zr = s.zr := rfl
@[simp] theorem setTrigger_ts (i : Nat) (e : Option TriggerEntry) (s : State) : (setTrigger i e s).ts = s.ts := rfl
@[simp] theorem setTrigger_me (i : Nat) (e : Option TriggerEntry) (s : State) : (setTrigger i e s).me = { s.me with triggers := s.me.triggers.set i e } := rfl
@[simp] theorem setTrigger_freeIndex (i : Nat) (e : Option TriggerEntry) (s : State) : (setTrigger i e s).freeIndex = s.freeIndex := rfl
@[simp] theorem setTrigger_pending (i : Nat) (e : Option TriggerEntry) (s : State) : (setTrigger i e s).pending = s.pending := rfl

@[simp] theorem removeOrder_ri (id : OrderId) (s : State) : (removeOrder id s).ri = s.ri := rfl
@[simp] theorem removeOrder_pt (id : OrderId) (s : State) : (removeOrder id s).pt = s.pt := rfl
@[simp] theorem removeOrder_sm (id : OrderId) (s : State) : (removeOrder id s).sm = s.sm := rfl
@[simp] theorem removeOrder_os (id : OrderId) (s : State) : (removeOrder id s).os = { s.os with orders := s.os.orders.filter fun o => o.id != id } := rfl
@[simp] theorem removeOrder_kc (id : OrderId) (s : State) : (removeOrder id s).kc = s.kc := rfl
@[simp] theorem removeOrder_cs (id : OrderId) (s : State) : (removeOrder id s).cs = s.cs := rfl
@[simp] theorem removeOrder_sc (id : OrderId) (s : State) : (removeOrder id s).sc = s.sc := rfl
@[simp] theorem removeOrder_zr (id : OrderId) (s : State) : (removeOrder id s).zr = s.zr := rfl
@[simp] theorem removeOrder_ts (id : OrderId) (s : State) : (removeOrder id s).ts = s.ts := rfl
@[simp] theorem removeOrder_me (id : OrderId) (s : State) : (removeOrder id s).me = s.me := rfl
@[simp] theorem removeOrder_freeIndex (id : OrderId) (s : State) : (removeOrder id s).freeIndex = s.freeIndex := rfl
@[simp] theorem removeOrder_pending (id : OrderId) (s : State) : (removeOrder id s).pending = s.pending := rfl

@[simp] theorem setPrevWc_ri (w : WebPos) (s : State) : (setPrevWc w s).ri = s.ri := rfl
@[simp] theorem setPrevWc_pt (w : WebPos) (s : State) : (setPrevWc w s).pt = s.pt := rfl
@[simp] theorem setPrevWc_sm (w : WebPos) (s : State) : (setPrevWc w s).sm = s.sm := rfl
@[simp] theorem setPrevWc_os (w : WebPos) (s : State) : (setPrevWc w s).os = s.os := rfl
@[simp] theorem setPrevWc_kc (w : WebPos) (s : State) : (setPrevWc w s).kc = s.kc := rfl
@[simp] theorem setPrevWc_cs (w : WebPos) (s : State) : (setPrevWc w s).cs = { s.cs with prevWc := some w } := rfl
@[simp] theorem setPrevWc_sc (w : WebPos) (s : State) : (setPrevWc w s).sc = s.sc := rfl
@[simp] theorem setPrevWc_zr (w : WebPos) (s : State) : (setPrevWc w s).zr = s.zr := rfl
@[simp] theorem setPrevWc_ts (w : WebPos) (s : State) : (setPrevWc w s).ts = s.ts := rfl
@[simp] theorem setPrevWc_me (w : WebPos) (s : State) : (setPrevWc w s).me = s.me := rfl
@[simp] theorem setPrevWc_freeIndex (w : WebPos) (s : State) : (setPrevWc w s).freeIndex = s.freeIndex := rfl
@[simp] theorem setPrevWc_pending (w : WebPos) (s : State) : (setPrevWc w s).pending = s.pending := rfl

@[simp] theorem setCutSeq_ri (q : Byte) (s : State) : (setCutSeq q s).ri = s.ri := rfl
@[simp] theorem setCutSeq_pt (q : Byte) (s : State) : (setCutSeq q s).pt = s.pt := rfl
@[simp] theorem setCutSeq_sm (q : Byte) (s : State) : (setCutSeq q s).sm = s.sm := rfl
@[simp] theorem setCutSeq_os (q : Byte) (s : State) : (setCutSeq q s).os = s.os := rfl
@[simp] theorem setCutSeq_kc (q : Byte) (s : State) : (setCutSeq q s).kc = s.kc := rfl
@[simp] theorem setCutSeq_cs (q : Byte) (s : State) : (setCutSeq q s).cs = { s.cs with lastSeq := some q } := rfl
@[simp] theorem setCutSeq_sc (q : Byte) (s : State) : (setCutSeq q s).sc = s.sc := rfl
@[simp] theorem setCutSeq_zr (q : Byte) (s : State) : (setCutSeq q s).zr = s.zr := rfl
@[simp] theorem setCutSeq_ts (q : Byte) (s : State) : (setCutSeq q s).ts = s.ts := rfl
@[simp] theorem setCutSeq_me (q : Byte) (s : State) : (setCutSeq q s).me = s.me := rfl
@[simp] theorem setCutSeq_freeIndex (q : Byte) (s : State) : (setCutSeq q s).freeIndex = s.freeIndex := rfl
@[simp] theorem setCutSeq_pending (q : Byte) (s : State) : (setCutSeq q s).pending = s.pending := rfl

@[simp] theorem setTallySeq_ri (q : Byte) (s : State) : (setTallySeq q s).ri = s.ri := rfl
@[simp] theorem setTallySeq_pt (q : Byte) (s : State) : (setTallySeq q s).pt = { s.pt with lastSeq := some q } := rfl
@[simp] theorem setTallySeq_sm (q : Byte) (s : State) : (setTallySeq q s).sm = s.sm := rfl
@[simp] theorem setTallySeq_os (q : Byte) (s : State) : (setTallySeq q s).os = s.os := rfl
@[simp] theorem setTallySeq_kc (q : Byte) (s : State) : (setTallySeq q s).kc = s.kc := rfl
@[simp] theorem setTallySeq_cs (q : Byte) (s : State) : (setTallySeq q s).cs = s.cs := rfl
@[simp] theorem setTallySeq_sc (q : Byte) (s : State) : (setTallySeq q s).sc = s.sc := rfl
@[simp] theorem setTallySeq_zr (q : Byte) (s : State) : (setTallySeq q s).zr = s.zr := rfl
@[simp] theorem setTallySeq_ts (q : Byte) (s : State) : (setTallySeq q s).ts = s.ts := rfl
@[simp] theorem setTallySeq_me (q : Byte) (s : State) : (setTallySeq q s).me = s.me := rfl
@[simp] theorem setTallySeq_freeIndex (q : Byte) (s : State) : (setTallySeq q s).freeIndex = s.freeIndex := rfl
@[simp] theorem setTallySeq_pending (q : Byte) (s : State) : (setTallySeq q s).pending = s.pending := rfl

@[simp] theorem setHeld_ri (hs : List HeldReport) (s : State) : (setHeld hs s).ri = { s.ri with held := hs } := rfl
@[simp] theorem setHeld_pt (hs : List HeldReport) (s : State) : (setHeld hs s).pt = s.pt := rfl
@[simp] theorem setHeld_sm (hs : List HeldReport) (s : State) : (setHeld hs s).sm = s.sm := rfl
@[simp] theorem setHeld_os (hs : List HeldReport) (s : State) : (setHeld hs s).os = s.os := rfl
@[simp] theorem setHeld_kc (hs : List HeldReport) (s : State) : (setHeld hs s).kc = s.kc := rfl
@[simp] theorem setHeld_cs (hs : List HeldReport) (s : State) : (setHeld hs s).cs = s.cs := rfl
@[simp] theorem setHeld_sc (hs : List HeldReport) (s : State) : (setHeld hs s).sc = s.sc := rfl
@[simp] theorem setHeld_zr (hs : List HeldReport) (s : State) : (setHeld hs s).zr = s.zr := rfl
@[simp] theorem setHeld_ts (hs : List HeldReport) (s : State) : (setHeld hs s).ts = s.ts := rfl
@[simp] theorem setHeld_me (hs : List HeldReport) (s : State) : (setHeld hs s).me = s.me := rfl
@[simp] theorem setHeld_freeIndex (hs : List HeldReport) (s : State) : (setHeld hs s).freeIndex = s.freeIndex := rfl
@[simp] theorem setHeld_pending (hs : List HeldReport) (s : State) : (setHeld hs s).pending = s.pending := rfl

@[simp] theorem setStation_ri (i : Nat) (e : Option Station) (s : State) : (setStation i e s).ri = { s.ri with stations := s.ri.stations.set i e } := rfl
@[simp] theorem setStation_pt (i : Nat) (e : Option Station) (s : State) : (setStation i e s).pt = s.pt := rfl
@[simp] theorem setStation_sm (i : Nat) (e : Option Station) (s : State) : (setStation i e s).sm = s.sm := rfl
@[simp] theorem setStation_os (i : Nat) (e : Option Station) (s : State) : (setStation i e s).os = s.os := rfl
@[simp] theorem setStation_kc (i : Nat) (e : Option Station) (s : State) : (setStation i e s).kc = s.kc := rfl
@[simp] theorem setStation_cs (i : Nat) (e : Option Station) (s : State) : (setStation i e s).cs = s.cs := rfl
@[simp] theorem setStation_sc (i : Nat) (e : Option Station) (s : State) : (setStation i e s).sc = s.sc := rfl
@[simp] theorem setStation_zr (i : Nat) (e : Option Station) (s : State) : (setStation i e s).zr = s.zr := rfl
@[simp] theorem setStation_ts (i : Nat) (e : Option Station) (s : State) : (setStation i e s).ts = s.ts := rfl
@[simp] theorem setStation_me (i : Nat) (e : Option Station) (s : State) : (setStation i e s).me = s.me := rfl
@[simp] theorem setStation_freeIndex (i : Nat) (e : Option Station) (s : State) : (setStation i e s).freeIndex = s.freeIndex := rfl
@[simp] theorem setStation_pending (i : Nat) (e : Option Station) (s : State) : (setStation i e s).pending = s.pending := rfl

@[simp] theorem setSpan_ri (i : Nat) (v : Span) (s : State) : (setSpan i v s).ri = s.ri := rfl
@[simp] theorem setSpan_pt (i : Nat) (v : Span) (s : State) : (setSpan i v s).pt = s.pt := rfl
@[simp] theorem setSpan_sm (i : Nat) (v : Span) (s : State) : (setSpan i v s).sm = { s.sm with spans := s.sm.spans.set i v } := rfl
@[simp] theorem setSpan_os (i : Nat) (v : Span) (s : State) : (setSpan i v s).os = s.os := rfl
@[simp] theorem setSpan_kc (i : Nat) (v : Span) (s : State) : (setSpan i v s).kc = s.kc := rfl
@[simp] theorem setSpan_cs (i : Nat) (v : Span) (s : State) : (setSpan i v s).cs = s.cs := rfl
@[simp] theorem setSpan_sc (i : Nat) (v : Span) (s : State) : (setSpan i v s).sc = s.sc := rfl
@[simp] theorem setSpan_zr (i : Nat) (v : Span) (s : State) : (setSpan i v s).zr = s.zr := rfl
@[simp] theorem setSpan_ts (i : Nat) (v : Span) (s : State) : (setSpan i v s).ts = s.ts := rfl
@[simp] theorem setSpan_me (i : Nat) (v : Span) (s : State) : (setSpan i v s).me = s.me := rfl
@[simp] theorem setSpan_freeIndex (i : Nat) (v : Span) (s : State) : (setSpan i v s).freeIndex = s.freeIndex := rfl
@[simp] theorem setSpan_pending (i : Nat) (v : Span) (s : State) : (setSpan i v s).pending = s.pending := rfl

@[simp] theorem setGrade_ri (g : Nat) (v : Option Grade) (s : State) : (setGrade g v s).ri = s.ri := rfl
@[simp] theorem setGrade_pt (g : Nat) (v : Option Grade) (s : State) : (setGrade g v s).pt = s.pt := rfl
@[simp] theorem setGrade_sm (g : Nat) (v : Option Grade) (s : State) : (setGrade g v s).sm = s.sm := rfl
@[simp] theorem setGrade_os (g : Nat) (v : Option Grade) (s : State) : (setGrade g v s).os = s.os := rfl
@[simp] theorem setGrade_kc (g : Nat) (v : Option Grade) (s : State) : (setGrade g v s).kc = s.kc := rfl
@[simp] theorem setGrade_cs (g : Nat) (v : Option Grade) (s : State) : (setGrade g v s).cs = s.cs := rfl
@[simp] theorem setGrade_sc (g : Nat) (v : Option Grade) (s : State) : (setGrade g v s).sc = s.sc := rfl
@[simp] theorem setGrade_zr (g : Nat) (v : Option Grade) (s : State) : (setGrade g v s).zr = { s.zr with grades := s.zr.grades.set g v } := rfl
@[simp] theorem setGrade_ts (g : Nat) (v : Option Grade) (s : State) : (setGrade g v s).ts = s.ts := rfl
@[simp] theorem setGrade_me (g : Nat) (v : Option Grade) (s : State) : (setGrade g v s).me = s.me := rfl
@[simp] theorem setGrade_freeIndex (g : Nat) (v : Option Grade) (s : State) : (setGrade g v s).freeIndex = s.freeIndex := rfl
@[simp] theorem setGrade_pending (g : Nat) (v : Option Grade) (s : State) : (setGrade g v s).pending = s.pending := rfl

@[simp] theorem setProfile_ri (i : Nat) (p : Profile) (s : State) : (setProfile i p s).ri = s.ri := rfl
@[simp] theorem setProfile_pt (i : Nat) (p : Profile) (s : State) : (setProfile i p s).pt = s.pt := rfl
@[simp] theorem setProfile_sm (i : Nat) (p : Profile) (s : State) : (setProfile i p s).sm = s.sm := rfl
@[simp] theorem setProfile_os (i : Nat) (p : Profile) (s : State) : (setProfile i p s).os = s.os := rfl
@[simp] theorem setProfile_kc (i : Nat) (p : Profile) (s : State) : (setProfile i p s).kc = s.kc := rfl
@[simp] theorem setProfile_cs (i : Nat) (p : Profile) (s : State) : (setProfile i p s).cs = s.cs := rfl
@[simp] theorem setProfile_sc (i : Nat) (p : Profile) (s : State) : (setProfile i p s).sc = s.sc := rfl
@[simp] theorem setProfile_zr (i : Nat) (p : Profile) (s : State) : (setProfile i p s).zr = { s.zr with profiles := s.zr.profiles.set i p } := rfl
@[simp] theorem setProfile_ts (i : Nat) (p : Profile) (s : State) : (setProfile i p s).ts = s.ts := rfl
@[simp] theorem setProfile_me (i : Nat) (p : Profile) (s : State) : (setProfile i p s).me = s.me := rfl
@[simp] theorem setProfile_freeIndex (i : Nat) (p : Profile) (s : State) : (setProfile i p s).freeIndex = s.freeIndex := rfl
@[simp] theorem setProfile_pending (i : Nat) (p : Profile) (s : State) : (setProfile i p s).pending = s.pending := rfl

@[simp] theorem placeAnswer_ri (a : Answer) (s : State) : (placeAnswer a s).ri = { s.ri with answers := s.ri.answers ++ [a] } := rfl
@[simp] theorem placeAnswer_pt (a : Answer) (s : State) : (placeAnswer a s).pt = s.pt := rfl
@[simp] theorem placeAnswer_sm (a : Answer) (s : State) : (placeAnswer a s).sm = s.sm := rfl
@[simp] theorem placeAnswer_os (a : Answer) (s : State) : (placeAnswer a s).os = s.os := rfl
@[simp] theorem placeAnswer_kc (a : Answer) (s : State) : (placeAnswer a s).kc = s.kc := rfl
@[simp] theorem placeAnswer_cs (a : Answer) (s : State) : (placeAnswer a s).cs = s.cs := rfl
@[simp] theorem placeAnswer_sc (a : Answer) (s : State) : (placeAnswer a s).sc = s.sc := rfl
@[simp] theorem placeAnswer_zr (a : Answer) (s : State) : (placeAnswer a s).zr = s.zr := rfl
@[simp] theorem placeAnswer_ts (a : Answer) (s : State) : (placeAnswer a s).ts = s.ts := rfl
@[simp] theorem placeAnswer_me (a : Answer) (s : State) : (placeAnswer a s).me = s.me := rfl
@[simp] theorem placeAnswer_freeIndex (a : Answer) (s : State) : (placeAnswer a s).freeIndex = s.freeIndex := rfl
@[simp] theorem placeAnswer_pending (a : Answer) (s : State) : (placeAnswer a s).pending = s.pending := rfl

@[simp] theorem discardRequest_ri (s : State) : (discardRequest s).ri = s.ri := rfl
@[simp] theorem discardRequest_pt (s : State) : (discardRequest s).pt = s.pt := rfl
@[simp] theorem discardRequest_sm (s : State) : (discardRequest s).sm = s.sm := rfl
@[simp] theorem discardRequest_os (s : State) : (discardRequest s).os = s.os := rfl
@[simp] theorem discardRequest_kc (s : State) : (discardRequest s).kc = s.kc := rfl
@[simp] theorem discardRequest_cs (s : State) : (discardRequest s).cs = s.cs := rfl
@[simp] theorem discardRequest_sc (s : State) : (discardRequest s).sc = s.sc := rfl
@[simp] theorem discardRequest_zr (s : State) : (discardRequest s).zr = s.zr := rfl
@[simp] theorem discardRequest_ts (s : State) : (discardRequest s).ts = s.ts := rfl
@[simp] theorem discardRequest_me (s : State) : (discardRequest s).me = { s.me with discards := bump s.me.discards 1 } := rfl
@[simp] theorem discardRequest_freeIndex (s : State) : (discardRequest s).freeIndex = s.freeIndex := rfl
@[simp] theorem discardRequest_pending (s : State) : (discardRequest s).pending = s.pending := rfl

@[simp] theorem countMalformed_ri (s : State) : (countMalformed s).ri = { s.ri with malformed := bump s.ri.malformed 1 } := rfl
@[simp] theorem countMalformed_pt (s : State) : (countMalformed s).pt = s.pt := rfl
@[simp] theorem countMalformed_sm (s : State) : (countMalformed s).sm = s.sm := rfl
@[simp] theorem countMalformed_os (s : State) : (countMalformed s).os = s.os := rfl
@[simp] theorem countMalformed_kc (s : State) : (countMalformed s).kc = s.kc := rfl
@[simp] theorem countMalformed_cs (s : State) : (countMalformed s).cs = s.cs := rfl
@[simp] theorem countMalformed_sc (s : State) : (countMalformed s).sc = s.sc := rfl
@[simp] theorem countMalformed_zr (s : State) : (countMalformed s).zr = s.zr := rfl
@[simp] theorem countMalformed_ts (s : State) : (countMalformed s).ts = s.ts := rfl
@[simp] theorem countMalformed_me (s : State) : (countMalformed s).me = s.me := rfl
@[simp] theorem countMalformed_freeIndex (s : State) : (countMalformed s).freeIndex = s.freeIndex := rfl
@[simp] theorem countMalformed_pending (s : State) : (countMalformed s).pending = s.pending := rfl

@[simp] theorem countReturned_ri (s : State) : (countReturned s).ri = { s.ri with returned := bump s.ri.returned 1 } := rfl
@[simp] theorem countReturned_pt (s : State) : (countReturned s).pt = s.pt := rfl
@[simp] theorem countReturned_sm (s : State) : (countReturned s).sm = s.sm := rfl
@[simp] theorem countReturned_os (s : State) : (countReturned s).os = s.os := rfl
@[simp] theorem countReturned_kc (s : State) : (countReturned s).kc = s.kc := rfl
@[simp] theorem countReturned_cs (s : State) : (countReturned s).cs = s.cs := rfl
@[simp] theorem countReturned_sc (s : State) : (countReturned s).sc = s.sc := rfl
@[simp] theorem countReturned_zr (s : State) : (countReturned s).zr = s.zr := rfl
@[simp] theorem countReturned_ts (s : State) : (countReturned s).ts = s.ts := rfl
@[simp] theorem countReturned_me (s : State) : (countReturned s).me = s.me := rfl
@[simp] theorem countReturned_freeIndex (s : State) : (countReturned s).freeIndex = s.freeIndex := rfl
@[simp] theorem countReturned_pending (s : State) : (countReturned s).pending = s.pending := rfl

@[simp] theorem countStray_ri (s : State) : (countStray s).ri = { s.ri with stray := bump s.ri.stray 1 } := rfl
@[simp] theorem countStray_pt (s : State) : (countStray s).pt = s.pt := rfl
@[simp] theorem countStray_sm (s : State) : (countStray s).sm = s.sm := rfl
@[simp] theorem countStray_os (s : State) : (countStray s).os = s.os := rfl
@[simp] theorem countStray_kc (s : State) : (countStray s).kc = s.kc := rfl
@[simp] theorem countStray_cs (s : State) : (countStray s).cs = s.cs := rfl
@[simp] theorem countStray_sc (s : State) : (countStray s).sc = s.sc := rfl
@[simp] theorem countStray_zr (s : State) : (countStray s).zr = s.zr := rfl
@[simp] theorem countStray_ts (s : State) : (countStray s).ts = s.ts := rfl
@[simp] theorem countStray_me (s : State) : (countStray s).me = s.me := rfl
@[simp] theorem countStray_freeIndex (s : State) : (countStray s).freeIndex = s.freeIndex := rfl
@[simp] theorem countStray_pending (s : State) : (countStray s).pending = s.pending := rfl

@[simp] theorem repeatFrame_ri (f : RingFrame) (s : State) : (repeatFrame f s).ri = { s.ri with txPin := some f } := rfl
@[simp] theorem repeatFrame_pt (f : RingFrame) (s : State) : (repeatFrame f s).pt = s.pt := rfl
@[simp] theorem repeatFrame_sm (f : RingFrame) (s : State) : (repeatFrame f s).sm = s.sm := rfl
@[simp] theorem repeatFrame_os (f : RingFrame) (s : State) : (repeatFrame f s).os = s.os := rfl
@[simp] theorem repeatFrame_kc (f : RingFrame) (s : State) : (repeatFrame f s).kc = s.kc := rfl
@[simp] theorem repeatFrame_cs (f : RingFrame) (s : State) : (repeatFrame f s).cs = s.cs := rfl
@[simp] theorem repeatFrame_sc (f : RingFrame) (s : State) : (repeatFrame f s).sc = s.sc := rfl
@[simp] theorem repeatFrame_zr (f : RingFrame) (s : State) : (repeatFrame f s).zr = s.zr := rfl
@[simp] theorem repeatFrame_ts (f : RingFrame) (s : State) : (repeatFrame f s).ts = s.ts := rfl
@[simp] theorem repeatFrame_me (f : RingFrame) (s : State) : (repeatFrame f s).me = s.me := rfl
@[simp] theorem repeatFrame_freeIndex (f : RingFrame) (s : State) : (repeatFrame f s).freeIndex = s.freeIndex := rfl
@[simp] theorem repeatFrame_pending (f : RingFrame) (s : State) : (repeatFrame f s).pending = s.pending := rfl

@[simp] theorem originate_ri (f : RingFrame) (s : State) : (originate f s).ri = { s.ri with txPin := some f, originSeq := s.ri.originSeq + 1 } := rfl
@[simp] theorem originate_pt (f : RingFrame) (s : State) : (originate f s).pt = s.pt := rfl
@[simp] theorem originate_sm (f : RingFrame) (s : State) : (originate f s).sm = s.sm := rfl
@[simp] theorem originate_os (f : RingFrame) (s : State) : (originate f s).os = s.os := rfl
@[simp] theorem originate_kc (f : RingFrame) (s : State) : (originate f s).kc = s.kc := rfl
@[simp] theorem originate_cs (f : RingFrame) (s : State) : (originate f s).cs = s.cs := rfl
@[simp] theorem originate_sc (f : RingFrame) (s : State) : (originate f s).sc = s.sc := rfl
@[simp] theorem originate_zr (f : RingFrame) (s : State) : (originate f s).zr = s.zr := rfl
@[simp] theorem originate_ts (f : RingFrame) (s : State) : (originate f s).ts = s.ts := rfl
@[simp] theorem originate_me (f : RingFrame) (s : State) : (originate f s).me = s.me := rfl
@[simp] theorem originate_freeIndex (f : RingFrame) (s : State) : (originate f s).freeIndex = s.freeIndex := rfl
@[simp] theorem originate_pending (f : RingFrame) (s : State) : (originate f s).pending = s.pending := rfl

@[simp] theorem modStand_ri (k : Nat) (f : Stand → Stand) (s : State) : (modStand k f s).ri = s.ri := by
  cases k <;> rfl
@[simp] theorem modStand_pt (k : Nat) (f : Stand → Stand) (s : State) : (modStand k f s).pt = s.pt := by
  cases k <;> rfl
@[simp] theorem modStand_sm (k : Nat) (f : Stand → Stand) (s : State) : (modStand k f s).sm = s.sm := by
  cases k <;> rfl
@[simp] theorem modStand_os (k : Nat) (f : Stand → Stand) (s : State) : (modStand k f s).os = s.os := by
  cases k <;> rfl
@[simp] theorem modStand_kc (k : Nat) (f : Stand → Stand) (s : State) : (modStand k f s).kc = s.kc := by
  cases k <;> rfl
@[simp] theorem modStand_cs (k : Nat) (f : Stand → Stand) (s : State) : (modStand k f s).cs = s.cs := by
  cases k <;> rfl
@[simp] theorem modStand_zr (k : Nat) (f : Stand → Stand) (s : State) : (modStand k f s).zr = s.zr := by
  cases k <;> rfl
@[simp] theorem modStand_ts (k : Nat) (f : Stand → Stand) (s : State) : (modStand k f s).ts = s.ts := by
  cases k <;> rfl
@[simp] theorem modStand_me (k : Nat) (f : Stand → Stand) (s : State) : (modStand k f s).me = s.me := by
  cases k <;> rfl
@[simp] theorem modStand_freeIndex (k : Nat) (f : Stand → Stand) (s : State) : (modStand k f s).freeIndex = s.freeIndex := by
  cases k <;> rfl
@[simp] theorem modStand_pending (k : Nat) (f : Stand → Stand) (s : State) : (modStand k f s).pending = s.pending := by
  cases k <;> rfl
@[simp] theorem modStand_zero (f : Stand → Stand) (s : State) : modStand 0 f s = s := rfl
@[simp] theorem modStand_succ_sc (i : Nat) (f : Stand → Stand) (s : State) :
    (modStand (i + 1) f s).sc = { s.sc with stands := s.sc.stands.modify i f } := rfl

@[simp] theorem modKnife_ri (k : KnifeId) (f : KnifeRecord → KnifeRecord) (s : State) : (modKnife k f s).ri = s.ri := by
  cases k <;> rfl
@[simp] theorem modKnife_pt (k : KnifeId) (f : KnifeRecord → KnifeRecord) (s : State) : (modKnife k f s).pt = s.pt := by
  cases k <;> rfl
@[simp] theorem modKnife_sm (k : KnifeId) (f : KnifeRecord → KnifeRecord) (s : State) : (modKnife k f s).sm = s.sm := by
  cases k <;> rfl
@[simp] theorem modKnife_os (k : KnifeId) (f : KnifeRecord → KnifeRecord) (s : State) : (modKnife k f s).os = s.os := by
  cases k <;> rfl
@[simp] theorem modKnife_cs (k : KnifeId) (f : KnifeRecord → KnifeRecord) (s : State) : (modKnife k f s).cs = s.cs := by
  cases k <;> rfl
@[simp] theorem modKnife_sc (k : KnifeId) (f : KnifeRecord → KnifeRecord) (s : State) : (modKnife k f s).sc = s.sc := by
  cases k <;> rfl
@[simp] theorem modKnife_zr (k : KnifeId) (f : KnifeRecord → KnifeRecord) (s : State) : (modKnife k f s).zr = s.zr := by
  cases k <;> rfl
@[simp] theorem modKnife_ts (k : KnifeId) (f : KnifeRecord → KnifeRecord) (s : State) : (modKnife k f s).ts = s.ts := by
  cases k <;> rfl
@[simp] theorem modKnife_me (k : KnifeId) (f : KnifeRecord → KnifeRecord) (s : State) : (modKnife k f s).me = s.me := by
  cases k <;> rfl
@[simp] theorem modKnife_freeIndex (k : KnifeId) (f : KnifeRecord → KnifeRecord) (s : State) : (modKnife k f s).freeIndex = s.freeIndex := by
  cases k <;> rfl
@[simp] theorem modKnife_pending (k : KnifeId) (f : KnifeRecord → KnifeRecord) (s : State) : (modKnife k f s).pending = s.pending := by
  cases k <;> rfl
@[simp] theorem modKnife_a_kc (f : KnifeRecord → KnifeRecord) (s : State) :
    (modKnife .a f s).kc = { s.kc with a := f s.kc.a } := rfl
@[simp] theorem modKnife_b_kc (f : KnifeRecord → KnifeRecord) (s : State) :
    (modKnife .b f s).kc = { s.kc with b := f s.kc.b } := rfl

@[simp] theorem modSplice_ri (k : Nat) (f : Splice → Splice) (s : State) : (modSplice k f s).ri = s.ri := by
  cases k <;> rfl
@[simp] theorem modSplice_pt (k : Nat) (f : Splice → Splice) (s : State) : (modSplice k f s).pt = s.pt := by
  cases k <;> rfl
@[simp] theorem modSplice_sm (k : Nat) (f : Splice → Splice) (s : State) : (modSplice k f s).sm = s.sm := by
  cases k <;> rfl
@[simp] theorem modSplice_os (k : Nat) (f : Splice → Splice) (s : State) : (modSplice k f s).os = s.os := by
  cases k <;> rfl
@[simp] theorem modSplice_kc (k : Nat) (f : Splice → Splice) (s : State) : (modSplice k f s).kc = s.kc := by
  cases k <;> rfl
@[simp] theorem modSplice_cs (k : Nat) (f : Splice → Splice) (s : State) : (modSplice k f s).cs = s.cs := by
  cases k <;> rfl
@[simp] theorem modSplice_zr (k : Nat) (f : Splice → Splice) (s : State) : (modSplice k f s).zr = s.zr := by
  cases k <;> rfl
@[simp] theorem modSplice_ts (k : Nat) (f : Splice → Splice) (s : State) : (modSplice k f s).ts = s.ts := by
  cases k <;> rfl
@[simp] theorem modSplice_me (k : Nat) (f : Splice → Splice) (s : State) : (modSplice k f s).me = s.me := by
  cases k <;> rfl
@[simp] theorem modSplice_freeIndex (k : Nat) (f : Splice → Splice) (s : State) : (modSplice k f s).freeIndex = s.freeIndex := by
  cases k <;> rfl
@[simp] theorem modSplice_pending (k : Nat) (f : Splice → Splice) (s : State) : (modSplice k f s).pending = s.pending := by
  cases k <;> rfl

/-- The record of the stand changed, as it is read back (R110). -/
@[simp] theorem standOf_modStand_same (k : Nat) (f : Stand → Stand) (s : State) :
    standOf (modStand k f s) k = (standOf s k).map f := by
  cases k with
  | zero => rfl
  | succ i => simp [standOf, modStand]

/-- Another stand's record is as before (R110). -/
theorem standOf_modStand_other (k j : Nat) (h : j ≠ k) (f : Stand → Stand) (s : State) :
    standOf (modStand k f s) j = standOf s j := by
  cases k with
  | zero => rfl
  | succ i =>
    cases j with
    | zero => rfl
    | succ m =>
      have hm : i ≠ m := by omega
      simp [standOf, modStand, hm]

/-- The record of the knife station changed, as it is read back (R71). -/
@[simp] theorem knifeOf_modKnife_same (k : KnifeId) (f : KnifeRecord → KnifeRecord) (s : State) :
    knifeOf (modKnife k f s) k = f (knifeOf s k) := by
  cases k <;> rfl

/-- The other knife station's record is as before (R71). -/
@[simp] theorem knifeOf_modKnife_other (k : KnifeId) (f : KnifeRecord → KnifeRecord) (s : State) :
    knifeOf (modKnife k f s) (otherKnife k) = knifeOf s (otherKnife k) := by
  cases k <;> rfl

/-- The record of the zone changed, as it is read back (R138). -/
@[simp] theorem zoneOf_modZone_same (n : Nat) (f : Zone → Zone) (s : State) :
    zoneOf (modZone n f s) n = (zoneOf s n).map f := by
  simp [zoneOf]

/-- Another zone's record is as before (R138). -/
theorem zoneOf_modZone_other (n m : Nat) (h : m ≠ n) (f : Zone → Zone) (s : State) :
    zoneOf (modZone n f s) m = zoneOf s m := by
  have h' : n ≠ m := fun e => h e.symm
  simp [zoneOf, h']

/-- A change of a stand's record keeps the stand count (R110). -/
@[simp] theorem standCount_modStand (k : Nat) (f : Stand → Stand) (s : State) :
    standCount (modStand k f s) = standCount s := by
  cases k with
  | zero => rfl
  | succ i => simp [standCount, modStand]

end Sys2Proof.Machine
end

