-- ==== Sys2Proof/Laws/Works.lean ====
section
/-! SUPPORT. What one piece of the line's work can do, said once: `Works s t` holds when `t` comes from `s` with the frame kept
(`SameFrame`), no report taken out of the report queue, and the laws of the line's records kept (`LineLaws`). Here are the
relation, the laws of the directive queue, and the relation for each shared operation of Ops.lean and for each kind of record
update; Laws/Line.lean builds on them. -/

namespace Sys2Proof.Machine

/-! ## The laws one piece of work keeps -/

/-- A completion under way (R124): its stand, and the id of its joint until the stand's reference names it. -/
abbrev Completing : Type := Option (Nat × Option MarkId)

/-- The laws of the map's marks while one completion may be under way (`ex`): the joint of that stand is the one claimed, or the
one referred to, and the splice there still works. Outside a completion `ex` is none. -/
structure JointLaws (ex : Completing) (s : State) : Prop where
  ids : (s.sm.marks.map (·.id)).Nodup
  process : (s.sm.marks.filter fun m => !m.isJoint).length ≤ Config.processTier
  joints : ∀ m ∈ s.sm.marks, ∀ k, m.kind = .joint k →
    ∃ r, standOf s k = some r ∧ (ex = some (k, some m.id) ∨ ((∀ i, ex ≠ some (k, some i)) ∧ r.jointRef = some m.id))
  unarmed : ∀ k r, standOf s k = some r → ex.map (·.1) ≠ some k → r.splice.state.working = true → r.jointRef = none

/-- The laws that every piece of the line's work keeps. -/
structure WorkLaws (ex : Completing) (s : State) : Prop where
  line : LineLaws s
  stands : s.sc.stands.length ≤ Config.standCapacity
  joints : JointLaws ex s
  orders : OrderLaws s
  rolls : (s.sc.stands.flatMap rollIds).Nodup
  latches : ∀ t ∈ s.ts.zones, Latched t

/-- The orders of the queue with their feed states. -/
def feedsOf (s : State) : List (OrderId × FeedState) := s.os.orders.map fun o => (o.id, o.feed)

/-- What a piece of the line's work may touch: a quiet one moves no order and no feed state, a loud one does, and an outer one is
made while no completion is under way. -/
inductive Reach where
  | quiet
  | loud (outer : Bool)

/-- One piece of the line's work, from `s` to `t`. -/
structure Works (q : Reach) (s t : State) : Prop where
  frame : SameFrame s t
  reports : s.ri.reports.length ≤ t.ri.reports.length
  laws : ∀ ex, (q = .loud true → ex = none) → WorkLaws ex s → WorkLaws ex t
  feeds : q = .quiet → feedsOf t = feedsOf s

theorem SameFrame.refl (s : State) : SameFrame s s := by constructor <;> rfl

theorem SameFrame.trans {a b c : State} (h : SameFrame a b) (k : SameFrame b c) : SameFrame a c := by
  constructor
  all_goals first
    | exact k.ownAddress.trans h.ownAddress
    | exact k.stations.trans h.stations
    | exact k.held.trans h.held
    | exact k.faultRecord.trans h.faultRecord
    | exact k.frameFaults.trans h.frameFaults
    | exact k.returned.trans h.returned
    | exact k.stray.trans h.stray
    | exact k.malformed.trans h.malformed
    | exact k.overruns.trans h.overruns
    | exact k.forwarding.trans h.forwarding
    | exact k.answers.trans h.answers
    | exact k.originSeq.trans h.originSeq
    | exact k.txPin.trans h.txPin
    | exact k.lineCount.trans h.lineCount
    | exact k.lastSeq.trans h.lastSeq
    | exact k.speed.trans h.speed
    | exact k.stopped.trans h.stopped
    | exact k.lostTallies.trans h.lostTallies
    | exact k.geometry.trans h.geometry
    | exact k.spans.trans h.spans
    | exact k.cutSeq.trans h.cutSeq
    | exact k.stands.trans h.stands
    | exact k.grades.trans h.grades
    | exact k.profiles.trans h.profiles
    | exact k.zones.trans h.zones
    | exact k.readings.trans h.readings
    | exact k.readingsTaken.trans h.readingsTaken
    | exact k.unmatched.trans h.unmatched
    | exact k.running.trans h.running
    | exact k.discards.trans h.discards
    | exact k.triggers.trans h.triggers
    | exact k.freeIndex.trans h.freeIndex
    | exact k.pending.trans h.pending

theorem length_filter_feeds (p : FeedState → Bool) (l : List Order) :
    (l.filter fun o => p o.feed).length = ((l.map fun o => (o.id, o.feed)).filter fun x => p x.2).length := by
  induction l with
  | nil => rfl
  | cons x t ih => simp only [List.map_cons, List.filter_cons]; split <;> simp [ih]

theorem exists_feed_iff (f : FeedState) (l : List Order) :
    (∃ o ∈ l, o.feed = f) ↔ ∃ x ∈ l.map fun o => (o.id, o.feed), x.2 = f := by
  simp

/-- The laws of the order queue speak of ids and feed states alone. -/
theorem OrderLaws.of_feeds {s t : State} (l : OrderLaws s) (h : feedsOf t = feedsOf s) : OrderLaws t := by
  unfold feedsOf at h
  have hi : ∀ l : List Order, l.map (·.id) = (l.map fun o => (o.id, o.feed)).map (·.1) := fun l => by simp
  constructor
  · rw [hi, h, ← hi]; exact l.ids
  · rw [length_filter_feeds FeedState.isCurrent, h, ← length_filter_feeds]; exact l.current
  · rw [length_filter_feeds (· == .next), h, ← length_filter_feeds (· == .next)]; exact l.next
  · rw [exists_feed_iff, exists_feed_iff, h, ← exists_feed_iff, ← exists_feed_iff]; exact l.beside

theorem length_of_feeds {s t : State} (h : feedsOf t = feedsOf s) : t.os.orders.length = s.os.orders.length := by
  simpa [feedsOf] using congrArg List.length h

theorem standOf_congr {s t : State} (h : t.sc.stands = s.sc.stands) (k : Nat) : standOf t k = standOf s k := by
  cases k <;> simp [standOf, h]

/-- The laws of the joints speak of the marks and the stands alone. -/
theorem JointLaws.congr {ex : Completing} {s t : State} (l : JointLaws ex s) (marks : t.sm.marks = s.sm.marks)
    (stands : t.sc.stands = s.sc.stands) : JointLaws ex t := by
  have h := standOf_congr stands
  exact ⟨marks ▸ l.ids, marks ▸ l.process, fun m hm k hk => by rw [h]; exact l.joints m (marks ▸ hm) k hk,
    fun k r hr => l.unarmed k r (by rw [← h]; exact hr)⟩

theorem Works.refl {q : Reach} (s : State) : Works q s s := ⟨SameFrame.refl s, le_refl _, fun _ _ l => l, fun _ => rfl⟩

theorem Works.trans {q : Reach} {a b c : State} (h : Works q a b) (k : Works q b c) : Works q a c :=
  ⟨h.frame.trans k.frame, h.reports.trans k.reports, fun ex e l => k.laws ex e (h.laws ex e l),
   fun hq => (k.feeds hq).trans (h.feeds hq)⟩

/-- Quiet work is work. -/
theorem Works.loud {q : Reach} {s t : State} (h : Works .quiet s t) : Works q s t :=
  ⟨h.frame, h.reports, fun ex _ => h.laws ex (by simp), fun _ => h.feeds rfl⟩

/-- An update that leaves the queues, the map, the stands and the part state, moves no order, and keeps live flags latched. -/
theorem Works.soft {q : Reach} {b s t : State} (h : Works q b s) (frame : SameFrame s t)
    (directives : t.ri.directives = s.ri.directives) (reports : t.ri.reports = s.ri.reports) (feeds : feedsOf t = feedsOf s)
    (marks : t.sm.marks = s.sm.marks) (stands : t.sc.stands = s.sc.stands)
    (latches : (∀ x ∈ s.ts.zones, Latched x) → ∀ x ∈ t.ts.zones, Latched x) : Works q b t :=
  h.trans ⟨frame, reports ▸ le_refl _, fun _ _ l =>
    { line := ⟨directives ▸ l.line.directives, reports ▸ l.line.reports, length_of_feeds feeds ▸ l.line.orders,
        marks ▸ l.line.mapOrder, marks ▸ l.line.uncertainty, stands ▸ l.line.carry,
        fun r => marks ▸ l.line.noMarks (frame.running ▸ r)⟩
      stands := stands ▸ l.stands
      joints := l.joints.congr marks stands
      orders := l.orders.of_feeds feeds
      rolls := stands ▸ l.rolls
      latches := latches l.latches }, fun _ => feeds⟩

theorem Works.ite {q : Reach} {b x y : State} {c : Prop} [Decidable c] (hx : Works q b x) (hy : Works q b y) :
    Works q b (if c then x else y) := by
  split <;> assumption

theorem Works.foldl {q : Reach} {α : Type} {b : State} {f : State → α → State} (hf : ∀ s x, Works q b s → Works q b (f s x))
    {s : State} (l : List α) (h : Works q b s) : Works q b (l.foldl f s) := by
  induction l generalizing s with
  | nil => exact h
  | cons x t ih => exact ih (hf s x h)

/-! ## The directive queue (R179) -/

theorem isLineRequest_of_replaces {d x : PlacedDirective} (h : replaces d x = true) : isLineRequest d = isLineRequest x := by
  unfold replaces at h
  unfold isLineRequest
  split at h <;> simp_all

theorem isSetpointOf_of_replaces {d x : PlacedDirective} (z : Nat) (h : replaces d x = true) :
    isSetpointOf z d = isSetpointOf z x := by
  unfold replaces at h
  unfold isSetpointOf
  split at h <;> simp_all

/-- Replacing directives by one that answers a test as they do keeps the number of those that pass it. -/
theorem length_filter_replaced (p : PlacedDirective → Bool) (d : PlacedDirective)
    (hp : ∀ x, replaces d x = true → p d = p x) (q : List PlacedDirective) :
    ((q.map fun x => if replaces d x then d else x).filter p).length = (q.filter p).length := by
  induction q with
  | nil => rfl
  | cons x t ih =>
    by_cases hr : replaces d x = true
    · have e := hp x hr
      simp only [List.map_cons, hr, if_true, List.filter_cons, e]
      split <;> simp [ih]
    · simp only [Bool.not_eq_true] at hr
      simp only [List.map_cons, hr, Bool.false_eq_true, if_false, List.filter_cons]
      split <;> simp [ih]

/-- The entries that pass a test and those that do not make up the list. -/
theorem length_filter_add {α : Type} (p : α → Bool) (q : List α) :
    (q.filter p).length + (q.filter fun d => !p d).length = q.length := by
  induction q with
  | nil => rfl
  | cons x t ih => simp only [List.filter_cons]; cases p x <;> simp <;> omega

theorem no_setpoint_of_not_any {d : PlacedDirective} {q : List PlacedDirective} (h : q.any (replaces d) = false) (z : Nat)
    (hd : isSetpointOf z d = true) : q.filter (isSetpointOf z) = [] := by
  rw [List.filter_eq_nil_iff]
  intro x hx
  have h2 : replaces d x = false := by
    have := List.any_eq_false.mp h x hx
    simpa using this
  rcases d with ⟨_, d⟩
  rcases x with ⟨_, x⟩
  cases d <;> simp [isSetpointOf] at hd
  (cases x <;> simp_all [isSetpointOf, replaces]); omega

theorem no_request_of_not_any {d : PlacedDirective} {q : List PlacedDirective} (h : q.any (replaces d) = false)
    (hd : isLineRequest d = true) : q.filter isLineRequest = [] := by
  rw [List.filter_eq_nil_iff]
  intro x hx
  have h2 : replaces d x = false := by
    have := List.any_eq_false.mp h x hx
    simpa using this
  rcases d with ⟨_, d⟩
  rcases x with ⟨_, x⟩
  cases d <;> simp [isLineRequest] at hd
  cases x <;> simp_all [isLineRequest, replaces]

theorem DirectiveLaws.append {d : PlacedDirective} {q : List PlacedDirective} (l : DirectiveLaws q)
    (h : q.any (replaces d) = false) (room : isLineRequest d = true ∨ q.length + 2 ≤ Config.directiveCapacity) :
    DirectiveLaws (q ++ [d]) := by
  constructor
  · have hl := length_filter_add (fun x => !isLineRequest x) q
    have ho := l.others
    simp only [List.filter_append, List.length_append]
    cases hd : isLineRequest d
    · simp only [hd, Bool.false_eq_true, false_or] at room
      simp only [Config.directiveCapacity] at room
      simp [hd]
      omega
    · simp [hd]
      omega
  · simp only [List.filter_append, List.length_append]
    cases hd : isLineRequest d
    · simpa [hd] using l.oneRequest
    · simp [hd, no_request_of_not_any h hd]
  · intro z
    simp only [List.filter_append, List.length_append]
    cases hd : isSetpointOf z d
    · simpa [hd] using l.oneSetpoint z
    · simp [hd, no_setpoint_of_not_any h z hd]

theorem DirectiveLaws.replace {q : List PlacedDirective} (l : DirectiveLaws q) (d : PlacedDirective) :
    DirectiveLaws (q.map fun x => if replaces d x then d else x) := by
  constructor
  · rw [length_filter_replaced (fun x => !isLineRequest x) d (fun x h => by rw [isLineRequest_of_replaces h])]
    exact l.others
  · rw [length_filter_replaced isLineRequest d (fun x h => isLineRequest_of_replaces h)]
    exact l.oneRequest
  · intro z
    rw [length_filter_replaced (isSetpointOf z) d (fun x h => isSetpointOf_of_replaces z h)]
    exact l.oneSetpoint z

/-- The three rules of R179 keep the laws of the queue. -/
theorem DirectiveLaws.enqueue {d : PlacedDirective} {q r : List PlacedDirective} (l : DirectiveLaws q)
    (h : Machine.enqueue d q = some r) : DirectiveLaws r := by
  unfold Machine.enqueue at h
  split at h
  · cases h; exact l.replace d
  · next ha =>
    have ha : q.any (replaces d) = false := by simpa using ha
    split at h
    · next hs =>
      cases h
      refine l.append ha (.inl ?_)
      simp only [Bool.and_eq_true] at hs
      have := hs.1
      unfold isStop at this
      unfold isLineRequest
      split at this <;> simp_all
    · split at h
      · next hl => cases h; exact l.append ha (.inr hl)
      · cases h

/-! ## The operations of Ops.lean -/

/-- A change of the directive and report queues that keeps their laws and takes no report out. -/
theorem Works.setQueues {q : Reach} {b s : State} (h : Works q b s) {r : RiState} (frame : SameFrame s { s with ri := r })
    (directives : DirectiveLaws s.ri.directives → DirectiveLaws r.directives)
    (reports : s.ri.reports.length ≤ r.reports.length)
    (room : s.ri.reports.length ≤ Config.reportCapacity → r.reports.length ≤ Config.reportCapacity) :
    Works q b { s with ri := r } :=
  h.trans ⟨frame, reports, fun _ _ l =>
    { line := ⟨directives l.line.directives, room l.line.reports, l.line.orders, l.line.mapOrder, l.line.uncertainty,
        l.line.carry, l.line.noMarks⟩
      stands := l.stands
      joints := l.joints.congr rfl rfl
      orders := l.orders.of_feeds rfl
      rolls := l.rolls
      latches := l.latches }, fun _ => rfl⟩

theorem Works.report {q : Reach} {b s : State} (h : Works q b s) (x : ReportBody) : Works q b (Machine.report x s) := by
  unfold Machine.report
  simp only
  split
  · next hlt => exact h.setQueues (by constructor <;> rfl) (fun l => l) (by simp) (fun _ => by simp; omega)
  · exact h.setQueues (by constructor <;> rfl) (fun l => l) (le_refl _) (fun l => l)

theorem works_report {q : Reach} (x : ReportBody) (s : State) : Works q s (report x s) := (Works.refl s).report x

theorem Works.stopClaim {q : Reach} {b s : State} (h : Works q b s) (c : HoldCause) : Works q b (Machine.stopClaim c s) :=
  h.soft (by constructor <;> rfl) rfl rfl rfl rfl rfl (fun l => l)

theorem Works.setDirectives {q : Reach} {b s : State} (h : Works q b s) {d : PlacedDirective} {ds : List PlacedDirective}
    (hq : enqueue d s.ri.directives = some ds) : Works q b (Machine.setDirectives ds s) :=
  h.setQueues (by constructor <;> rfl) (fun l => l.enqueue hq) (le_refl _) (fun l => l)

theorem Works.lineReport {q : Reach} {b s : State} (h : Works q b s) (p : Option LineRequest) :
    Works q b (Machine.lineReport p s) := h.report _

theorem Works.placeStop {q : Reach} {b s : State} (h : Works q b s) : Works q b (Machine.placeStop s) := by
  unfold Machine.placeStop
  split
  · split
    · next hq => exact h.setDirectives hq
    · exact h
  · exact h

/-- A change of the slow and stop holder sets or of the tracking warning. -/
theorem Works.setHolders {q : Reach} {b s : State} (h : Works q b s) (slow : List SlowHolder) (stop : List StopCause) (w : Bool) :
    Works q b { s with pt := { s.pt with slow := slow, stop := stop, trackingWarned := w } } :=
  h.soft (by constructor <;> rfl) rfl rfl rfl rfl rfl (fun l => l)

theorem Works.claimStop {q : Reach} {b s : State} (h : Works q b s) (c : StopCause) : Works q b (Machine.claimStop c s) := by
  unfold Machine.claimStop
  split
  · exact h
  · exact (h.setHolders s.pt.slow (s.pt.stop ++ [c]) s.pt.trackingWarned).placeStop.lineReport _

theorem Works.directiveOverflow {q : Reach} {b s : State} (h : Works q b s) : Works q b (Machine.directiveOverflow s) := by
  have h1 : Works q b { s with ri := { s.ri with discardedDirectives := bump s.ri.discardedDirectives 1 } } :=
    h.soft (by constructor <;> rfl) rfl rfl rfl rfl rfl (fun l => l)
  exact (h1.claimStop _).stopClaim _

theorem Works.placeDirective {q : Reach} {b s : State} (h : Works q b s) (t : Nat) (d : Directive) :
    Works q b (Machine.placeDirective t d s) := by
  unfold Machine.placeDirective
  split
  · next hq => exact h.setDirectives hq
  · exact h.directiveOverflow

theorem Works.direct {q : Reach} {b s : State} (h : Works q b s) (r : Role) (d : Directive) : Works q b (Machine.direct r d s) :=
  h.placeDirective _ _

theorem Works.directStand {q : Reach} {b s : State} (h : Works q b s) (k : Nat) (d : Directive) :
    Works q b (Machine.directStand k d s) :=
  h.placeDirective _ _

/-! ## What the directive and report queues leave of the stands -/

@[simp] theorem report_sc (x : ReportBody) (s : State) : (report x s).sc = s.sc := by
  unfold report
  simp only
  split <;> rfl

@[simp] theorem placeStop_sc (s : State) : (placeStop s).sc = s.sc := by
  unfold placeStop
  split
  · split <;> rfl
  · rfl

@[simp] theorem claimStop_sc (c : StopCause) (s : State) : (claimStop c s).sc = s.sc := by
  unfold claimStop
  split
  · rfl
  · simp [lineReport]

@[simp] theorem directiveOverflow_sc (s : State) : (directiveOverflow s).sc = s.sc := by simp [directiveOverflow, stopClaim]

@[simp] theorem placeDirective_sc (t : Nat) (d : Directive) (s : State) : (placeDirective t d s).sc = s.sc := by
  unfold placeDirective
  split
  · rfl
  · simp

@[simp] theorem driveChange_sc (s : State) : (driveChange s).sc = s.sc := by
  unfold driveChange
  split
  · simp [lineReport]
  · split
    · simp [lineReport, setDirectives]
    · simp [lineReport]

@[simp] theorem placeSlow_sc (k limit : Nat) (s : State) : (placeSlow k limit s).sc = s.sc := by
  unfold placeSlow
  split
  · simp
  · split <;> simp

@[simp] theorem directStand_sc (k : Nat) (d : Directive) (s : State) : (directStand k d s).sc = s.sc := by simp [directStand]

/-! ## Updates of one record -/

/-- Changing one entry of a list keeps what the change keeps of every entry. -/
theorem map_modify_eq {α β : Type} (g : α → β) (f : α → α) (hf : ∀ x, g (f x) = g x) (l : List α) (i : Nat) :
    (l.modify i f).map g = l.map g := by
  induction l generalizing i with
  | nil => cases i <;> rfl
  | cons x t ih => cases i <;> simp [hf, ih]

theorem forall_modify {α : Type} {p : α → Prop} {f : α → α} (hf : ∀ x, p x → p (f x)) {l : List α} (i : Nat)
    (h : ∀ x ∈ l, p x) : ∀ x ∈ l.modify i f, p x := by
  induction l generalizing i with
  | nil => cases i <;> simp
  | cons y t ih =>
    have hy := h y (by simp)
    have ht : ∀ x ∈ t, p x := fun x hx => h x (by simp [hx])
    cases i with
    | zero => simp only [List.modify_zero_cons, List.mem_cons]; rintro x (rfl | hx); exacts [hf _ hy, ht x hx]
    | succ i => simp only [List.modify_succ_cons, List.mem_cons]; rintro x (rfl | hx); exacts [hy, ih i ht x hx]

/-- Changing one entry of a list, the change known of that entry alone. -/
theorem forall_modify_at {α : Type} {p : α → Prop} {f : α → α} {l : List α} {i : Nat}
    (hf : ∀ x, l[i]? = some x → p x → p (f x)) (h : ∀ x ∈ l, p x) : ∀ x ∈ l.modify i f, p x := by
  induction l generalizing i with
  | nil => cases i <;> simp
  | cons y t ih =>
    have hy := h y (by simp)
    have ht : ∀ x ∈ t, p x := fun x hx => h x (by simp [hx])
    cases i with
    | zero =>
      simp only [List.modify_zero_cons, List.mem_cons]
      rintro x (rfl | hx)
      exacts [hf y (by simp) hy, ht x hx]
    | succ i =>
      simp only [List.modify_succ_cons, List.mem_cons]
      rintro x (rfl | hx)
      exacts [hy, ih (fun x hx => hf x (by simpa using hx)) ht x hx]

/-- Changing one entry so that it gives a sublist of what it gave keeps all entries' values distinct. -/
theorem nodup_flatMap_modify {α β : Type} {g : α → List β} {f : α → α} {l : List α} {i : Nat}
    (hf : ∀ x, l[i]? = some x → (g (f x)).Sublist (g x)) (h : (l.flatMap g).Nodup) : ((l.modify i f).flatMap g).Nodup := by
  refine List.Nodup.sublist ?_ h
  clear h
  induction l generalizing i with
  | nil => cases i <;> simp
  | cons y t ih =>
    cases i with
    | zero =>
      simp only [List.modify_zero_cons, List.flatMap_cons]
      exact (hf y (by simp)).append (List.Sublist.refl _)
    | succ i =>
      simp only [List.modify_succ_cons, List.flatMap_cons]
      exact (List.Sublist.refl (g y)).append (ih fun x hx => hf x (by simpa using hx))

@[simp] theorem standOf_modStand (j k : Nat) (f : Stand → Stand) (s : State) :
    standOf (modStand k f s) j = if j = k then (standOf s j).map f else standOf s j := by
  cases k with
  | zero => cases j <;> simp [standOf]
  | succ i =>
    cases j with
    | zero => simp [standOf]
    | succ j =>
      simp only [modStand, standOf, List.getElem?_modify, Nat.add_right_cancel_iff]
      by_cases h : i = j
      · subst h; simp
      · simp [h, Ne.symm h]

/-- What a change of a stand's record keeps: the range of the carry, the joint reference, that a splice working now was working
before or found no reference, and no roll id more. -/
structure StandStep (r r' : Stand) : Prop where
  carry : r.carry ≤ 999 → r'.carry ≤ 999
  jointRef : r'.jointRef = r.jointRef
  working : r'.splice.state.working = true → r.splice.state.working = true ∨ r.jointRef = none
  rolls : (rollIds r').Sublist (rollIds r)

/-- A change that leaves carry, joint reference, splice state and roll ids. -/
theorem StandStep.same {r r' : Stand} (carry : r'.carry = r.carry) (joint : r'.jointRef = r.jointRef)
    (state : r'.splice.state = r.splice.state) (rolls : rollIds r' = rollIds r) : StandStep r r' :=
  ⟨fun h => carry ▸ h, joint, fun h => .inl (state ▸ h), rolls ▸ List.Sublist.refl _⟩

theorem JointLaws.modStand {ex : Completing} {s : State} (l : JointLaws ex s) {k : Nat} {f : Stand → Stand}
    (hs : ∀ r, standOf s k = some r → StandStep r (f r)) : JointLaws ex (Machine.modStand k f s) := by
  have hm : (Machine.modStand k f s).sm = s.sm := by cases k <;> rfl
  refine ⟨hm ▸ l.ids, hm ▸ l.process, fun m hmem j hj => ?_, fun j r hr hex hw => ?_⟩
  · obtain ⟨r, hr, h⟩ := l.joints m (hm ▸ hmem) j hj
    by_cases hjk : j = k
    · subst hjk
      exact ⟨f r, by simp [hr], by rwa [(hs r hr).jointRef]⟩
    · exact ⟨r, by simp [hjk, hr], h⟩
  · by_cases hjk : j = k
    · subst hjk
      simp only [standOf_modStand, if_true, Option.map_eq_some_iff] at hr
      obtain ⟨r, hr, rfl⟩ := hr
      rw [(hs r hr).jointRef]
      rcases (hs r hr).working hw with h | h
      · exact l.unarmed j r hr hex h
      · exact h
    · exact l.unarmed j r (by simpa [hjk] using hr) hex hw

/-- A change of one stand's record within `StandStep` and its settings. -/
theorem Works.modStand {q : Reach} {b s : State} (h : Works q b s) {k : Nat} {f : Stand → Stand}
    (hf : ∀ r, standSettings (f r) = standSettings r) (hs : ∀ r, standOf s k = some r → StandStep r (f r)) :
    Works q b (Machine.modStand k f s) := by
  refine h.trans ⟨?_, ?_, fun ex _ l => ?_, fun _ => by cases k <;> rfl⟩
  · cases k with
    | zero => exact SameFrame.refl s
    | succ i =>
      constructor
      case stands => exact map_modify_eq standSettings f hf s.sc.stands i
      all_goals rfl
  · cases k <;> exact le_refl _
  · have hj := l.joints.modStand hs
    cases k with
    | zero => exact l
    | succ i =>
      exact
        { line := ⟨l.line.directives, l.line.reports, l.line.orders, l.line.mapOrder, l.line.uncertainty,
            forall_modify_at (fun r hr => (hs r hr).carry) l.line.carry, l.line.noMarks⟩
          stands := by simpa [Machine.modStand] using l.stands
          joints := hj
          orders := l.orders.of_feeds rfl
          rolls := nodup_flatMap_modify (fun r hr => (hs r hr).rolls) l.rolls
          latches := l.latches }

theorem Works.modZone {q : Reach} {b s : State} (h : Works q b s) {n : Nat} {f : Zone → Zone}
    (hf : ∀ z, restartedZone (f z) = restartedZone z) : Works q b (Machine.modZone n f s) := by
  refine h.soft ?_ rfl rfl rfl rfl rfl (fun l => l)
  constructor
  case zones => exact map_modify_eq restartedZone f hf s.zr.zones n
  all_goals rfl

theorem Works.modTrip {q : Reach} {b s : State} (h : Works q b s) {n : Nat} {f : ZoneTrip → ZoneTrip}
    (hf : ∀ t, (f t).lastReading = t.lastReading) (hl : ∀ t, Latched t → Latched (f t)) :
    Works q b (Machine.modTrip n f s) := by
  refine h.soft ?_ rfl rfl rfl rfl rfl (forall_modify hl n)
  constructor
  case readings => exact map_modify_eq (·.lastReading) f hf s.ts.zones n
  all_goals rfl

theorem Works.modKnife {q : Reach} {b s : State} (h : Works q b s) (k : KnifeId) (f : KnifeRecord → KnifeRecord) :
    Works q b (Machine.modKnife k f s) := by
  cases k <;> exact h.soft (by constructor <;> rfl) rfl rfl rfl rfl rfl (fun l => l)

theorem feedsOf_modOrder (id : OrderId) {f : Order → Order} (hf : ∀ o, (f o).id = o.id ∧ (f o).feed = o.feed) (s : State) :
    feedsOf (Machine.modOrder id f s) = feedsOf s := by
  simp only [feedsOf, modOrder_os, List.map_map, Function.comp_def]
  refine List.map_congr_left fun o _ => ?_
  split
  · rw [(hf o).1, (hf o).2]
  · rfl

/-- A change of an order that leaves its id and its feed state. -/
theorem Works.modOrder {q : Reach} {b s : State} (h : Works q b s) (o : OrderId) {f : Order → Order}
    (hf : ∀ o, (f o).id = o.id ∧ (f o).feed = o.feed) : Works q b (Machine.modOrder o f s) :=
  h.soft (by constructor <;> rfl) rfl rfl (feedsOf_modOrder o hf s) rfl rfl (fun l => l)

/-- A change of the Order Sequencer's record that keeps the orders. -/
theorem Works.setOs {q : Reach} {b s : State} (h : Works q b s) {o : OsState} (ho : o.orders = s.os.orders) :
    Works q b { s with os := o } :=
  h.soft (by constructor <;> rfl) rfl rfl (by simp [feedsOf, ho]) rfl rfl (fun l => l)

/-- A change of the order queue that keeps its size and its laws. -/
theorem Works.setOrdersLaws {u : Bool} {b s : State} (h : Works (.loud u) b s) {o : OsState}
    (laws : OrderLaws s → (s.os.orders.length ≤ Config.orderCapacity → o.orders.length ≤ Config.orderCapacity) ∧
      OrderLaws { s with os := o }) : Works (.loud u) b { s with os := o } :=
  h.trans ⟨by constructor <;> rfl, le_refl _, fun _ _ l =>
    { line := ⟨l.line.directives, l.line.reports, (laws l.orders).1 l.line.orders, l.line.mapOrder, l.line.uncertainty,
        l.line.carry, l.line.noMarks⟩
      stands := l.stands
      joints := l.joints.congr rfl rfl
      orders := (laws l.orders).2
      rolls := l.rolls
      latches := l.latches }, fun hq => by cases hq⟩

theorem Works.setOrders {u : Bool} {b s : State} (h : Works (.loud u) b s) {o : OsState}
    (ho : s.os.orders.length ≤ Config.orderCapacity → o.orders.length ≤ Config.orderCapacity)
    (laws : OrderLaws s → OrderLaws { s with os := o }) : Works (.loud u) b { s with os := o } :=
  h.setOrdersLaws fun l => ⟨ho, laws l⟩

/-- A change of the Cut Classifier's record that keeps the last cut sequence. -/
theorem Works.setCs {q : Reach} {b s : State} (h : Works q b s) {c : CsState} (hc : c.lastSeq = s.cs.lastSeq) :
    Works q b { s with cs := c } := by
  refine h.soft ?_ rfl rfl rfl rfl rfl (fun l => l)
  constructor
  case cutSeq => exact hc
  all_goals rfl

/-- A change of the trigger table and the feed-start notices. -/
theorem Works.setTriggers {q : Reach} {b s : State} (h : Works q b s) {t : List (Option TriggerEntry)}
    (ht : t.length = s.me.triggers.length) (f : List OrderId) :
    Works q b { s with me := { s.me with triggers := t, feedStarts := f } } := by
  refine h.soft ?_ rfl rfl rfl rfl rfl (fun l => l)
  constructor
  case triggers => exact ht
  all_goals rfl

/-- A change of the marks that keeps their order, their range of uncertainty, an empty map and the laws of the joints. -/
theorem Works.setMarks {q : Reach} {b s : State} (h : Works q b s) {ms : List Mark} {ins : List MarkId} {next : MarkId}
    (order : (s.sm.marks.Pairwise fun a b => a.w ≤ b.w) → ms.Pairwise fun a b => a.w ≤ b.w)
    (unc : (∀ m ∈ s.sm.marks, m.uncertainty ≤ uncertaintyMax) → ∀ m ∈ ms, m.uncertainty ≤ uncertaintyMax)
    (none : s.me.running = false → s.sm.marks = [] → ms = [])
    (joints : ∀ ex, s.sc.stands.length ≤ Config.standCapacity → JointLaws ex s →
      JointLaws ex { s with sm := { s.sm with marks := ms, insertion := ins, nextId := next } }) :
    Works q b { s with sm := { s.sm with marks := ms, insertion := ins, nextId := next } } :=
  h.trans ⟨by constructor <;> rfl, le_refl _, fun ex _ l =>
    { line := ⟨l.line.directives, l.line.reports, l.line.orders, order l.line.mapOrder, unc l.line.uncertainty, l.line.carry,
        fun r => none r (l.line.noMarks r)⟩
      stands := l.stands
      joints := joints ex l.stands l.joints
      orders := l.orders.of_feeds rfl
      rolls := l.rolls
      latches := l.latches }, fun _ => rfl⟩

/-- Marks changed one by one, each keeping its id and whether and of which stand it is a joint, keep the laws of the joints. -/
theorem JointLaws.mapMarks {ex : Completing} {s t : State} (l : JointLaws ex s) {f : Mark → Mark}
    (hi : ∀ m, (f m).id = m.id) (hk : ∀ m ∈ s.sm.marks, (∃ k, m.kind = .joint k ∧ (f m).kind = .joint k) ∨
      (m.isJoint = false ∧ (f m).isJoint = false))
    (marks : t.sm.marks = s.sm.marks.map f) (stands : t.sc.stands = s.sc.stands) : JointLaws ex t := by
  have hst := standOf_congr stands
  have hj : ∀ m ∈ s.sm.marks, (f m).isJoint = m.isJoint := by
    intro m hm
    rcases hk m hm with ⟨k, h1, h2⟩ | ⟨h1, h2⟩
    · simp [Mark.isJoint, h1, h2]
    · rw [h1, h2]
  refine ⟨?_, ?_, fun m hm k hkind => ?_, fun k r hr => l.unarmed k r (by rw [← hst]; exact hr)⟩
  · rw [marks, List.map_map]
    have : (fun m : Mark => m.id) ∘ f = fun m => m.id := funext hi
    rw [this]
    exact l.ids
  · rw [marks, List.filter_map, List.length_map]
    have : s.sm.marks.filter ((fun m => !m.isJoint) ∘ f) = s.sm.marks.filter fun m => !m.isJoint :=
      List.filter_congr fun m hm => by simp [hj m hm]
    rw [this]
    exact l.process
  · rw [marks] at hm
    obtain ⟨x, hx, rfl⟩ := List.mem_map.mp hm
    have : x.kind = .joint k := by
      rcases hk x hx with ⟨k', h1, h2⟩ | ⟨_, h2⟩
      · rw [h2] at hkind; rw [h1, hkind]
      · simp [Mark.isJoint, hkind] at h2
    rw [hst, hi]
    exact l.joints x hx k this

end Sys2Proof.Machine
end

