-- ==== Sys2Proof/Laws/Orders.lean ====
section
/-! SUPPORT. The laws of the order queue (R43, R46, R47, R68) through the changes that move feed states or orders: the first order
(R59), the commit (R55), the release (R58), the withdrawal (R62), new, moved and removed orders. -/

namespace Sys2Proof.Machine

/-- In a list without repetition at most one entry passes a test exactly where any two that pass are one. -/
theorem atMostOne_iff {α : Type} {l : List α} (nd : l.Nodup) (p : α → Bool) :
    (l.filter p).length ≤ 1 ↔ ∀ x ∈ l, ∀ y ∈ l, p x = true → p y = true → x = y := by
  constructor
  · intro h x hx y hy px py
    have mx := List.mem_filter.mpr ⟨hx, px⟩
    have my := List.mem_filter.mpr ⟨hy, py⟩
    generalize l.filter p = f at h mx my
    match f, h with
    | [], _ => simp at mx
    | [a], _ => rw [List.mem_singleton.mp mx, List.mem_singleton.mp my]
  · intro h
    have nf := nd.filter p
    cases hf : l.filter p with
    | nil => simp
    | cons a t =>
      cases t with
      | nil => simp
      | cons c t =>
        have ma : a ∈ l.filter p := by simp [hf]
        have mc : c ∈ l.filter p := by simp [hf]
        rw [List.mem_filter] at ma mc
        have := h a ma.1 c mc.1 ma.2 mc.2
        rw [hf] at nf
        simp [this] at nf

theorem OrderLaws.nodup {s : State} (l : OrderLaws s) : s.os.orders.Nodup := List.Nodup.of_map _ l.ids

theorem OrderLaws.eq_of_id {s : State} (l : OrderLaws s) {x y : Order} (hx : x ∈ s.os.orders) (hy : y ∈ s.os.orders)
    (e : x.id = y.id) : x = y := List.inj_on_of_nodup_map l.ids hx hy e

/-- Two orders in FEEDING or COMMITTED are one (R47). -/
theorem OrderLaws.current_eq {s : State} (l : OrderLaws s) {x y : Order} (hx : x ∈ s.os.orders) (hy : y ∈ s.os.orders)
    (cx : x.feed.isCurrent = true) (cy : y.feed.isCurrent = true) : x = y :=
  (atMostOne_iff l.nodup fun o : Order => o.feed.isCurrent).mp l.current x hx y hy cx cy

/-- Two NEXT orders are one (R47). -/
theorem OrderLaws.next_eq {s : State} (l : OrderLaws s) {x y : Order} (hx : x ∈ s.os.orders) (hy : y ∈ s.os.orders)
    (nx : x.feed = .next) (ny : y.feed = .next) : x = y :=
  (atMostOne_iff l.nodup fun o : Order => o.feed == .next).mp l.next x hx y hy (by simp [nx]) (by simp [ny])

/-- The laws from what membership says. -/
theorem OrderLaws.of_mem {s : State} (ids : (s.os.orders.map (·.id)).Nodup)
    (current : ∀ x ∈ s.os.orders, ∀ y ∈ s.os.orders, x.feed.isCurrent = true → y.feed.isCurrent = true → x = y)
    (next : ∀ x ∈ s.os.orders, ∀ y ∈ s.os.orders, x.feed = .next → y.feed = .next → x = y)
    (beside : ∀ x ∈ s.os.orders, x.feed = .next → ∃ y ∈ s.os.orders, y.feed = .committed) : OrderLaws s where
  ids := ids
  current := (atMostOne_iff (List.Nodup.of_map _ ids) _).mpr current
  next := (atMostOne_iff (List.Nodup.of_map _ ids) fun o : Order => o.feed == .next).mpr fun x hx y hy nx ny =>
    next x hx y hy (by simpa using nx) (by simpa using ny)
  beside := fun ⟨x, hx, nx⟩ => beside x hx nx

/-- Orders changed one by one, each keeping its id. -/
theorem OrderLaws.change {s t : State} (l : OrderLaws s) {g : Order → Order} (ht : t.os.orders = s.os.orders.map g)
    (hid : ∀ o, (g o).id = o.id)
    (current : ∀ x ∈ s.os.orders, ∀ y ∈ s.os.orders, (g x).feed.isCurrent = true → (g y).feed.isCurrent = true → x = y)
    (next : ∀ x ∈ s.os.orders, ∀ y ∈ s.os.orders, (g x).feed = .next → (g y).feed = .next → x = y)
    (beside : ∀ x ∈ s.os.orders, (g x).feed = .next → ∃ y ∈ s.os.orders, (g y).feed = .committed) : OrderLaws t := by
  refine OrderLaws.of_mem ?_ ?_ ?_ ?_
  · rw [ht, List.map_map]
    have : (fun o : Order => o.id) ∘ g = fun o => o.id := funext hid
    rw [this]
    exact l.ids
  · rw [ht]
    simp only [List.forall_mem_map]
    exact fun x hx y hy cx cy => congrArg g (current x hx y hy cx cy)
  · rw [ht]
    simp only [List.forall_mem_map]
    exact fun x hx y hy nx ny => congrArg g (next x hx y hy nx ny)
  · rw [ht]
    simp only [List.forall_mem_map]
    exact fun x hx nx => by
      obtain ⟨y, hy, cy⟩ := beside x hx nx
      exact ⟨g y, List.mem_map_of_mem hy, cy⟩

/-- With no current order no order is NEXT (R47). -/
theorem OrderLaws.no_next {s : State} (l : OrderLaws s) (h : ∀ o ∈ s.os.orders, o.feed ≠ .committed) {o : Order}
    (ho : o ∈ s.os.orders) : o.feed ≠ .next := by
  intro hn
  obtain ⟨y, hy, cy⟩ := l.beside ⟨o, ho, hn⟩
  exact h y hy cy

theorem currentOrder_spec {s : State} {c : Order} (h : currentOrder s = some c) :
    c ∈ s.os.orders ∧ c.feed.isCurrent = true := by
  refine ⟨List.mem_of_find?_eq_some h, ?_⟩
  have := List.find?_some h
  cases hc : c.feed <;> simp [hc, FeedState.isCurrent] at *

theorem currentOrder_none {s : State} (h : currentOrder s = none) {o : Order} (ho : o ∈ s.os.orders) :
    o.feed.isCurrent = false := by
  have := List.find?_eq_none.mp h o ho
  cases hc : o.feed <;> simp [hc, FeedState.isCurrent] at *

theorem nextOrder_spec {s : State} {n : Order} (h : nextOrder s = some n) : n ∈ s.os.orders ∧ n.feed = .next :=
  ⟨List.mem_of_find?_eq_some h, by simpa using List.find?_some h⟩

theorem queuedHead_spec {s : State} {n : Order} (h : queuedHead s = some n) : n ∈ s.os.orders ∧ n.feed = .queued :=
  ⟨List.mem_of_find?_eq_some h, by simpa using List.find?_some h⟩

theorem orderOf_spec {s : State} {id : OrderId} {o : Order} (h : orderOf s id = some o) : o ∈ s.os.orders ∧ o.id = id :=
  ⟨List.mem_of_find?_eq_some h, by simpa using List.find?_some h⟩

/-- The first order becomes FEEDING while no order is current (R59). -/
theorem OrderLaws.first {s t : State} {n : OrderId} {f : Order → Order}
    (ht : t.os.orders = s.os.orders.map fun o => if o.id == n then f o else o) (l : OrderLaws s) (hc : currentOrder s = none)
    (hf : ∀ o, (f o).id = o.id ∧ (f o).feed = .feeding) : OrderLaws t := by
  have cur : ∀ x ∈ s.os.orders, x.feed.isCurrent = false := fun x hx => currentOrder_none hc hx
  have nn : ∀ x ∈ s.os.orders, x.feed ≠ .next := fun x hx =>
    l.no_next (fun o ho e => by have := cur o ho; simp [e, FeedState.isCurrent] at this) hx
  refine l.change ht (fun o => by split <;> simp [hf]) (fun x hx y hy cx cy => ?_) (fun x hx y hy nx ny => ?_)
    (fun x hx nx => ?_)
  · by_cases ex : x.id = n
    · by_cases ey : y.id = n
      · exact l.eq_of_id hx hy (ex.trans ey.symm)
      · simp [ey, cur y hy] at cy
    · simp [ex, cur x hx] at cx
  · by_cases ex : x.id = n
    · simp [ex, hf] at nx
    · simp [ex, nn x hx] at nx
  · by_cases ex : x.id = n
    · simp [ex, hf] at nx
    · simp [ex, nn x hx] at nx

/-- A change of two orders' records: `fc` at the one, `fn` at the other. -/
abbrev changeTwo (c n : OrderId) (fc fn : Order → Order) (o : Order) : Order :=
  let x := if o.id == c then fc o else o
  if x.id == n then fn x else x

/-- A change of the current order and one more: to FEEDING or COMMITTED at most one of them, and NEXT beside COMMITTED alone. -/
theorem OrderLaws.two {s t : State} {c n : Order} {fc fn : Order → Order} {c' n' : FeedState}
    (ht : t.os.orders = (s.os.orders.map fun o => if o.id == c.id then fc o else o).map fun o => if o.id == n.id then fn o else o)
    (l : OrderLaws s) (hc : c ∈ s.os.orders) (cc : c.feed.isCurrent = true)
    (hn : n ∈ s.os.orders) (cn : n.feed.isCurrent = false)
    (hfc : ∀ o, (fc o).id = o.id ∧ (fc o).feed = c') (hfn : ∀ o, (fn o).id = o.id ∧ (fn o).feed = n')
    (one : (c'.isCurrent && n'.isCurrent) = false) (nc : c' ≠ .next)
    (others : ∀ o ∈ s.os.orders, o.id ≠ n.id → o.feed ≠ .next) (beside : n' = .next → c' = .committed) : OrderLaws t := by
  rw [List.map_map] at ht
  have hne : c.id ≠ n.id := fun e => by rw [l.eq_of_id hc hn e, cn] at cc; cases cc
  have gc : ∀ o : Order, o.id = c.id → (changeTwo c.id n.id fc fn o).feed = c' := fun o e => by
    simp [changeTwo, e, (hfc o).1, (hfc o).2, hne]
  have gn : ∀ o : Order, o.id = n.id → (changeTwo c.id n.id fc fn o).feed = n' := fun o e => by
    simp [changeTwo, e, Ne.symm hne, (hfn o).2]
  have go : ∀ o : Order, o.id ≠ c.id → o.id ≠ n.id → changeTwo c.id n.id fc fn o = o := fun o e e' => by
    simp [changeTwo, e, e']
  have oc : ∀ o ∈ s.os.orders, o.id ≠ c.id → o.feed.isCurrent = false := fun o ho e => by
    by_contra hcur
    exact e (congrArg Order.id (l.current_eq ho hc (by simpa using hcur) cc))
  refine l.change (g := changeTwo c.id n.id fc fn) ht (fun o => ?_) (fun x hx y hy cx cy => ?_) (fun x hx y hy nx ny => ?_) (fun x hx nx => ?_)
  · by_cases e : o.id = c.id
    · simp [changeTwo, e, (hfc o).1, hne]
    · by_cases e' : o.id = n.id
      · simp [changeTwo, e', Ne.symm hne, (hfn o).1]
      · rw [go o e e']
  · by_cases ex : x.id = c.id
    · rw [gc x ex] at cx
      by_cases ey : y.id = c.id
      · exact l.eq_of_id hx hy (ex.trans ey.symm)
      · by_cases ey' : y.id = n.id
        · rw [gn y ey'] at cy; simp [cx, cy] at one
        · rw [go y ey ey', oc y hy ey] at cy; cases cy
    · by_cases ex' : x.id = n.id
      · rw [gn x ex'] at cx
        by_cases ey : y.id = c.id
        · rw [gc y ey] at cy; simp [cx, cy] at one
        · by_cases ey' : y.id = n.id
          · exact l.eq_of_id hx hy (ex'.trans ey'.symm)
          · rw [go y ey ey', oc y hy ey] at cy; cases cy
      · rw [go x ex ex', oc x hx ex] at cx; cases cx
  · have only : ∀ o ∈ s.os.orders, (changeTwo c.id n.id fc fn o).feed = .next → o.id = n.id := fun o ho no => by
      by_contra e'
      by_cases e : o.id = c.id
      · exact nc (by rw [← gc o e, no])
      · rw [go o e e'] at no; exact others o ho e' no
    exact l.eq_of_id hx hy ((only x hx nx).trans (only y hy ny).symm)
  · by_cases e' : x.id = n.id
    · rw [gn x e'] at nx
      exact ⟨c, hc, by rw [gc c rfl, beside nx]⟩
    · by_cases e : x.id = c.id
      · exact absurd (by rw [← gc x e, nx]) nc
      · rw [go x e e'] at nx; exact absurd nx (others x hx e')

/-- A new QUEUED order whose id no order has, placed anywhere in the queue (R46, R68). -/
theorem OrderLaws.insert {s t : State} (l : OrderLaws s) {o : Order} (hq : o.feed = .queued)
    (hid : ∀ x ∈ s.os.orders, x.id ≠ o.id) (ht : t.os.orders.Perm (o :: s.os.orders)) : OrderLaws t := by
  have hm : ∀ x, x ∈ t.os.orders ↔ x = o ∨ x ∈ s.os.orders := fun x => by rw [ht.mem_iff, List.mem_cons]
  refine OrderLaws.of_mem ?_ ?_ ?_ ?_
  · refine (ht.map (·.id)).nodup_iff.mpr (List.nodup_cons.mpr ⟨?_, l.ids⟩)
    intro hmem
    obtain ⟨x, hx, e⟩ := List.mem_map.mp hmem
    exact hid x hx e
  · intro x hx y hy cx cy
    rcases (hm x).mp hx with rfl | hx
    · simp [hq, FeedState.isCurrent] at cx
    · rcases (hm y).mp hy with rfl | hy
      · simp [hq, FeedState.isCurrent] at cy
      · exact l.current_eq hx hy cx cy
  · intro x hx y hy nx ny
    rcases (hm x).mp hx with rfl | hx
    · simp [hq] at nx
    · rcases (hm y).mp hy with rfl | hy
      · simp [hq] at ny
      · exact l.next_eq hx hy nx ny
  · intro x hx nx
    rcases (hm x).mp hx with rfl | hx
    · simp [hq] at nx
    · obtain ⟨y, hy, cy⟩ := l.beside ⟨x, hx, nx⟩
      exact ⟨y, (hm y).mpr (.inr hy), cy⟩

/-- The orders in another order. -/
theorem OrderLaws.perm {s t : State} (l : OrderLaws s) (ht : t.os.orders.Perm s.os.orders) : OrderLaws t := by
  have hm : ∀ x, x ∈ t.os.orders ↔ x ∈ s.os.orders := fun x => ht.mem_iff
  refine OrderLaws.of_mem ((ht.map (·.id)).nodup_iff.mpr l.ids) ?_ ?_ ?_
  · exact fun x hx y hy => l.current_eq ((hm x).mp hx) ((hm y).mp hy)
  · exact fun x hx y hy => l.next_eq ((hm x).mp hx) ((hm y).mp hy)
  · intro x hx nx
    obtain ⟨y, hy, cy⟩ := l.beside ⟨x, (hm x).mp hx, nx⟩
    exact ⟨y, (hm y).mpr hy, cy⟩

/-- Orders removed, none of them COMMITTED. -/
theorem OrderLaws.remove {s t : State} (l : OrderLaws s) {p : Order → Bool} (hp : ∀ o ∈ s.os.orders, o.feed = .committed → p o = true)
    (ht : t.os.orders = s.os.orders.filter p) : OrderLaws t := by
  have hm : ∀ x, x ∈ t.os.orders ↔ x ∈ s.os.orders ∧ p x = true := fun x => by rw [ht, List.mem_filter]
  refine OrderLaws.of_mem ?_ ?_ ?_ ?_
  · rw [ht]
    exact l.ids.sublist (List.filter_sublist.map _)
  · exact fun x hx y hy => l.current_eq ((hm x).mp hx).1 ((hm y).mp hy).1
  · exact fun x hx y hy => l.next_eq ((hm x).mp hx).1 ((hm y).mp hy).1
  · intro x hx nx
    obtain ⟨y, hy, cy⟩ := l.beside ⟨x, ((hm x).mp hx).1, nx⟩
    exact ⟨y, (hm y).mpr ⟨hy, hp y hy cy⟩, cy⟩

/-- Orders kept in part, all of them QUEUED afterwards (R70). -/
theorem OrderLaws.allQueued {s t : State} (l : OrderLaws s) {p : Order → Bool} {f : Order → Order}
    (hf : ∀ o, (f o).id = o.id ∧ (f o).feed = .queued) (ht : t.os.orders = (s.os.orders.filter p).map f) : OrderLaws t := by
  have hq : ∀ x ∈ t.os.orders, x.feed = .queued := fun x hx => by
    rw [ht] at hx
    obtain ⟨o, _, rfl⟩ := List.mem_map.mp hx
    exact (hf o).2
  refine OrderLaws.of_mem ?_ ?_ ?_ ?_
  · rw [ht, List.map_map]
    have : (fun o : Order => o.id) ∘ f = fun o => o.id := funext fun o => (hf o).1
    rw [this]
    exact l.ids.sublist (List.filter_sublist.map _)
  · exact fun x hx y _ cx _ => by simp [hq x hx, FeedState.isCurrent] at cx
  · exact fun x hx y _ nx _ => by simp [hq x hx] at nx
  · exact fun x hx nx => by simp [hq x hx] at nx

end Sys2Proof.Machine
end

