-- ==== Sys2Proof/Laws/Line.lean ====
section
/-! SUPPORT. Every operation of the line's work keeps `Works`: one lemma per operation, in the order of the files under Machine. An
operation that takes the Order Sequencer's evaluation as an argument keeps it if the evaluation does. -/

namespace Sys2Proof.Machine

/-! ## Position.lean -/

theorem Works.driveChange {q : Reach} {b s : State} (h : Works q b s) :
    Works q b (Machine.driveChange s) := by
  unfold Machine.driveChange
  repeat' first
    | assumption | with_reducible apply Works.setDirectives | with_reducible apply Works.lineReport
    | with_reducible apply Works.directiveOverflow | split

theorem Works.placeSlow {q : Reach} {b s : State} (h : Works q b s) (k : Nat) (limit : Nat) :
    Works q b (Machine.placeSlow k limit s) := by
  unfold Machine.placeSlow
  repeat' first
    | assumption | with_reducible apply Works.driveChange | split | with_reducible refine Works.setHolders ?_ _ _ _

theorem Works.removeSlow {q : Reach} {b s : State} (h : Works q b s) (k : Nat) :
    Works q b (Machine.removeSlow k s) := by
  unfold Machine.removeSlow
  repeat' first
    | assumption | with_reducible apply Works.driveChange | split | with_reducible refine Works.setHolders ?_ _ _ _

theorem Works.removeStop {q : Reach} {b s : State} (h : Works q b s) (c : StopCause) :
    Works q b (Machine.removeStop c s) := by
  unfold Machine.removeStop
  repeat' first
    | assumption | with_reducible apply Works.driveChange | split | with_reducible refine Works.setHolders ?_ _ _ _

theorem Works.examineTracking {q : Reach} {b s : State} (h : Works q b s) :
    Works q b (Machine.examineTracking s) := by
  unfold Machine.examineTracking
  repeat' first
    | assumption | with_reducible apply Works.report | split | dsimp only
    | with_reducible refine Works.setHolders ?_ _ _ _

/-! ## SpliceArm.lean -/

theorem Works.modSplice {q : Reach} {b s : State} (h : Works q b s) {k : Nat} {f : Splice → Splice}
    (hw : ∀ r, standOf s k = some r → (f r.splice).state.working = true → r.splice.state.working = true ∨ r.jointRef = none) :
    Works q b (Machine.modSplice k f s) :=
  h.modStand (fun _ => rfl) fun r hr => ⟨fun hc => hc, rfl, hw r hr, List.Sublist.refl _⟩

/-- A splice made one that is not working. -/
theorem Works.restSplice {q : Reach} {b s : State} (h : Works q b s) {k : Nat} {f : Splice → Splice}
    (hw : ∀ p, (f p).state.working = false) : Works q b (Machine.modSplice k f s) :=
  h.modSplice fun r _ hf => absurd hf (by simp [hw])

/-- A splice whose state stays. -/
theorem Works.keepSplice {q : Reach} {b s : State} (h : Works q b s) {k : Nat} {f : Splice → Splice}
    (hw : ∀ p, (f p).state = p.state) : Works q b (Machine.modSplice k f s) :=
  h.modSplice fun r _ hf => .inl (hw r.splice ▸ hf)

/-- A splice that was working before, in a state with the stands of `s`. -/
theorem Works.workingSplice {q : Reach} {b s x : State} (h : Works q b x) {k : Nat} {f : Splice → Splice} {r : Stand}
    (hr : standOf s k = some r) (hw : r.splice.state.working = true) (hx : x.sc = s.sc) : Works q b (Machine.modSplice k f x) :=
  h.modSplice fun r' hr' _ => by
    rw [standOf_congr (congrArg ScState.stands hx), hr] at hr'
    cases hr'
    exact .inl hw

theorem Works.examineArmPoint {q : Reach} {b s : State} (h : Works q b s) {ev : State → State} (hev : ∀ s, Works q b s → Works q b (ev s)) (k : Nat) :
    Works q b (Machine.examineArmPoint ev k s) := by
  unfold Machine.examineArmPoint
  split
  · exact h
  · next r hr =>
    split
    · next hc =>
      simp only [Bool.and_eq_true, beq_iff_eq] at hc
      dsimp only
      split
      · exact hev _ (((h.placeSlow _ _).directStand _ _).workingSplice hr (by simp [hc.1, SpliceState.working]) (by simp))
      · exact h.placeSlow _ _
    · exact h

theorem Works.examinePastePoint {q : Reach} {b s : State} (h : Works q b s) {ev : State → State} (hev : ∀ s, Works q b s → Works q b (ev s)) (k : Nat) :
    Works q b (Machine.examinePastePoint ev k s) := by
  unfold Machine.examinePastePoint
  split
  · exact h
  · next r hr =>
    split
    · next hc =>
      simp only [Bool.and_eq_true, beq_iff_eq] at hc
      exact hev _ ((h.directStand _ _).workingSplice hr (by simp [hc.1, SpliceState.working]) (by simp))
    · exact h

theorem Works.examinePending {q : Reach} {b s : State} (h : Works q b s) {ev : State → State} (hev : ∀ s, Works q b s → Works q b (ev s)) (k : Nat) :
    Works q b (Machine.examinePending ev k s) := by
  unfold Machine.examinePending
  split
  · exact h
  · next r hr =>
    split
    · next hc =>
      refine Works.examineArmPoint (hev _ (h.modSplice fun r' hr' _ => ?_)) hev k
      rw [hr] at hr'
      cases hr'
      simp only [mayArm, Bool.and_eq_true, Option.isNone_iff_eq_none] at hc
      exact .inr hc.1.2
    · exact h

theorem Works.makePending {q : Reach} {b s : State} (h : Works q b s) {ev : State → State} (hev : ∀ s, Works q b s → Works q b (ev s)) (k : Nat) (f : Splice → Splice) :
    Works q b (Machine.makePending ev k f s) :=
  (hev _ (h.restSplice fun _ => rfl)).examinePending hev k

theorem Works.plannedClaim {q : Reach} {b s : State} (h : Works q b s) {ev : State → State} (hev : ∀ s, Works q b s → Works q b (ev s)) (k : Nat) (w : WebPos) (paper : Nat) (width : Nat) :
    Works q b (Machine.plannedClaim ev k w paper width s) := by
  unfold Machine.plannedClaim
  repeat' first
    | assumption | with_reducible apply hev | with_reducible apply Works.makePending | split

/-! ## SegmentMap.lean -/

/-- A changed mark is a joint of the same stand, or it is no joint as before. -/
def SameJoint (m m' : Mark) : Prop := (∃ k, m.kind = .joint k ∧ m'.kind = .joint k) ∨ (m.isJoint = false ∧ m'.isJoint = false)

theorem SameJoint.of_kind {m m' : Mark} (h : m'.kind = m.kind) : SameJoint m m' := by
  unfold SameJoint Mark.isJoint
  rw [h]
  cases m.kind <;> simp

theorem SameJoint.windows {m m' : Mark} {c c' : WindowCause} {x x' : Source} {e e' : Extent} (h : m.kind = .window c x e)
    (h' : m'.kind = .window c' x' e') : SameJoint m m' := .inr ⟨by simp [Mark.isJoint, h], by simp [Mark.isJoint, h']⟩

/-- Two marks of the map with one id are one mark, where ids are distinct. -/
theorem mark_eq_of_id {s : State} (h : (s.sm.marks.map (·.id)).Nodup) {x y : Mark} (hx : x ∈ s.sm.marks) (hy : y ∈ s.sm.marks)
    (e : x.id = y.id) : x = y := List.inj_on_of_nodup_map h hx hy e

theorem Works.modMark {q : Reach} {b s : State} (h : Works q b s) {id : MarkId} {f : Mark → Mark} (hw : ∀ m, (f m).w = m.w)
    (hu : (∀ m ∈ s.sm.marks, m.uncertainty ≤ uncertaintyMax) → ∀ m ∈ s.sm.marks, (f m).uncertainty ≤ uncertaintyMax)
    (hi : ∀ m, (f m).id = m.id)
    (hk : (s.sm.marks.map (·.id)).Nodup → ∀ m ∈ s.sm.marks, m.id = id → SameJoint m (f m)) :
    Works q b (Machine.modMark id f s) := by
  refine h.setMarks ?_ ?_ ?_ ?_
  · intro l
    rw [List.pairwise_map]
    refine l.imp fun {x y} hxy => ?_
    have e : ∀ z : Mark, (if z.id == id then f z else z).w = z.w := fun z => by split <;> simp [hw]
    rw [e, e]
    exact hxy
  · intro l m hm
    rw [List.mem_map] at hm
    obtain ⟨x, hx, rfl⟩ := hm
    split
    · exact hu l x hx
    · exact l x hx
  · intro _ hs
    simp [hs]
  · intro ex _ l
    refine l.mapMarks (f := fun m => if m.id == id then f m else m) (fun m => ?_) (fun m hm => ?_) rfl rfl
    · show (if m.id == id then f m else m).id = m.id
      split
      · exact hi m
      · rfl
    · show SameJoint m (if m.id == id then f m else m)
      split
      · next he => exact hk l.ids m hm (by simpa using he)
      · exact SameJoint.of_kind rfl

theorem Works.addCredit {q : Reach} {b s : State} (h : Works q b s) (order : OrderId) (id : MarkId) (amount : Nat) (extra : Nat) :
    Works q b (Machine.addCredit order id amount extra s) := by
  unfold Machine.addCredit
  repeat' first
    | assumption | with_reducible apply Works.modOrder | exact fun _ => ⟨rfl, rfl⟩ | split | dsimp only | intro s h
    | refine Works.setOs ?_ rfl

theorem Works.takeNotice {q : Reach} {b s : State} (h : Works q b s) (m : Mark) :
    Works q b (Machine.takeNotice m s).1 := by
  unfold Machine.takeNotice
  repeat' first
    | assumption | with_reducible apply Works.addCredit | split | dsimp only

theorem Works.reportTruncated {q : Reach} {b s : State} (h : Works q b s) (m : Mark) (c : WindowCause) (src : Source) (hi : WebPos) :
    Works q b (Machine.reportTruncated m c src hi s) := by
  unfold Machine.reportTruncated
  repeat' first
    | assumption | with_reducible apply Works.report

theorem markUncertainty_le {s : State} (l : ∀ m ∈ s.sm.marks, m.uncertainty ≤ uncertaintyMax) (c : ClaimUncertainty) :
    claimUncertainty s c ≤ uncertaintyMax := by
  cases c with
  | exact n => exact min_le_left _ _
  | like id =>
    simp only [claimUncertainty, markOf]
    cases hf : s.sm.marks.find? (fun m => m.id == id) with
    | none => exact Nat.zero_le _
    | some m => exact l m (List.mem_of_find?_eq_some hf)

theorem Works.mergeInto {q : Reach} {b s : State} (h : Works q b s) {e : Mark} (he : e ∈ s.sm.marks) (hw : e.isJoint = false)
    (c : WindowCause) (src : Source) (ext : Extent) (wn : WebPos) {unc : Nat}
    (hu : (∀ m ∈ s.sm.marks, m.uncertainty ≤ uncertaintyMax) → unc ≤ uncertaintyMax) :
    Works q b (Machine.mergeInto e c src ext wn unc s).1 := by
  have hm : ∀ l : ∀ m ∈ s.sm.marks, m.uncertainty ≤ uncertaintyMax, max e.uncertainty unc ≤ uncertaintyMax :=
    fun l => max_le (l e he) (hu l)
  have h1 : ∀ x : Extent, Works q b (Machine.modMark e.id
      (fun m => { m with kind := .window c src x, uncertainty := max e.uncertainty unc }) s) := fun x =>
    h.modMark (fun _ => rfl) (fun l _ _ => hm l) (fun _ => rfl)
      fun nd m hmem hid => .inr ⟨by rw [mark_eq_of_id nd hmem he hid]; exact hw, rfl⟩
  unfold Machine.mergeInto
  cases ext with
  | openEnded => exact (h1 _).takeNotice _
  | closed l =>
    refine Works.takeNotice ?_ _
    split
    · exact (h1 _).reportTruncated _ _ _ _
    · exact h1 _

theorem Works.reportUntracked {q : Reach} {b s : State} (h : Works q b s) (c : Claim) :
    Works q b (Machine.reportUntracked c s) := by
  unfold Machine.reportUntracked
  repeat' first
    | assumption | with_reducible apply Works.report | split

theorem placeMark_eq (m : Mark) (l : List Mark) :
    placeMark m l = (l.takeWhile fun x => x.w ≤ m.w) ++ m :: l.dropWhile fun x => x.w ≤ m.w := by
  induction l with
  | nil => rfl
  | cons x t ih => by_cases hx : x.w ≤ m.w <;> simp [placeMark, hx, ih]

theorem mem_placeMark (m x : Mark) (l : List Mark) : x ∈ placeMark m l ↔ x = m ∨ x ∈ l := by
  induction l with
  | nil => simp [placeMark]
  | cons y t ih =>
    unfold placeMark
    split
    · simp only [List.mem_cons, ih]; tauto
    · simp only [List.mem_cons]

/-- Placing a mark keeps ascending web positions (R25, step 4). -/
theorem pairwise_placeMark (m : Mark) {l : List Mark} (h : l.Pairwise fun a b => a.w ≤ b.w) :
    (placeMark m l).Pairwise fun a b => a.w ≤ b.w := by
  induction l with
  | nil => simp [placeMark]
  | cons y t ih =>
    rw [List.pairwise_cons] at h
    unfold placeMark
    split
    · next hy =>
      rw [List.pairwise_cons]
      refine ⟨fun x hx => ?_, ih h.2⟩
      rcases (mem_placeMark m x t).mp hx with rfl | hx
      · exact hy
      · exact h.1 x hx
    · next hy =>
      rw [List.pairwise_cons, List.pairwise_cons]
      refine ⟨fun x hx => ?_, h⟩
      rcases List.mem_cons.mp hx with rfl | hx
      · exact le_of_not_ge hy
      · exact le_trans (le_of_not_ge hy) (h.1 x hx)

theorem perm_placeMark (m : Mark) (l : List Mark) : (placeMark m l).Perm (m :: l) := by
  induction l with
  | nil => exact List.Perm.refl _
  | cons x t ih =>
    unfold placeMark
    split
    · exact (ih.cons x).trans (List.Perm.swap m x t)
    · exact List.Perm.refl _

/-- The id chosen is reached from the counter past ids in use alone, and is in use only where they are more than the steps. -/
theorem freshId_spec (used : List MarkId) (f : Nat) (n : MarkId) :
    ∃ j ≤ f, freshId used f n = n + BitVec.ofNat 16 j ∧ (∀ i < j, n + BitVec.ofNat 16 i ∈ used) ∧
      (j < f → freshId used f n ∉ used) := by
  induction f generalizing n with
  | zero => exact ⟨0, le_refl _, by simp [freshId], by simp, by simp⟩
  | succ f ih =>
    unfold freshId
    by_cases hn : n ∈ used
    · obtain ⟨j, hj, he, hin, hout⟩ := ih (n + 1)
      have hs : ∀ i : Nat, n + 1 + BitVec.ofNat 16 i = n + BitVec.ofNat 16 (i + 1) := fun i => by
        rw [BitVec.add_assoc, Nat.add_comm i 1]
        congr 1
        apply BitVec.eq_of_toNat_eq
        simp
      refine ⟨j + 1, by omega, by rw [← hs, ← he]; simp [hn], fun i hi => ?_, fun h => by simpa [hn] using hout (by omega)⟩
      cases i with
      | zero => simp [hn]
      | succ i => rw [← hs]; exact hin i (by omega)
    · exact ⟨0, by omega, by simp [hn], by simp, fun _ => by simp [hn]⟩

/-- The id given to a new mark is held by no mark in the map (R20). -/
theorem freshId_not_mem {used : List MarkId} (h : used.length < 2 ^ 16) (n : MarkId) : freshId used used.length n ∉ used := by
  obtain ⟨j, hj, he, hin, hout⟩ := freshId_spec used used.length n
  rcases Nat.lt_or_ge j used.length with hlt | hge
  · exact hout hlt
  · have hj : j = used.length := by omega
    rw [he]
    intro hm
    have inj : ∀ x ∈ List.range (j + 1), ∀ y ∈ List.range (j + 1),
        n + BitVec.ofNat 16 x = n + BitVec.ofNat 16 y → x = y := by
      intro x hx y hy hxy
      simp only [List.mem_range] at hx hy
      have := congrArg BitVec.toNat (add_left_cancel hxy)
      simp only [BitVec.toNat_ofNat] at this
      rwa [Nat.mod_eq_of_lt (by omega), Nat.mod_eq_of_lt (by omega)] at this
    have nd : ((List.range (j + 1)).map fun i => n + BitVec.ofNat 16 i).Nodup :=
      List.Nodup.map_on inj List.nodup_range
    have sub : ((List.range (j + 1)).map fun i => n + BitVec.ofNat 16 i) ⊆ used := by
      intro x hx
      obtain ⟨i, hi, rfl⟩ := List.mem_map.mp hx
      rcases Nat.lt_or_ge i j with h' | h'
      · exact hin i h'
      · have : i = j := by have := List.mem_range.mp hi; omega
        rw [this]; exact hm
    have := (nd.subperm sub).length_le
    simp at this
    omega

/-- The stand a joint names; 0 for any other mark. -/
def jointStand (m : Mark) : Nat :=
  match m.kind with
  | .joint k => k
  | _ => 0

theorem isJoint_iff (m : Mark) : m.isJoint = true ↔ ∃ k, m.kind = .joint k := by
  unfold Mark.isJoint
  cases m.kind <;> simp

theorem standOf_lt {s : State} {k : Nat} {r : Stand} (h : standOf s k = some r) : 1 ≤ k ∧ k ≤ s.sc.stands.length := by
  cases k with
  | zero => simp [standOf] at h
  | succ i =>
    obtain ⟨hi, _⟩ := List.getElem?_eq_some_iff.mp (show s.sc.stands[i]? = some r from h)
    omega

/-- Two joints of one stand have one id. -/
theorem JointLaws.joint_unique {ex : Completing} {s : State} (l : JointLaws ex s) {x y : Mark} (hx : x ∈ s.sm.marks)
    (hy : y ∈ s.sm.marks) {k : Nat} (kx : x.kind = .joint k) (ky : y.kind = .joint k) : x = y := by
  refine mark_eq_of_id l.ids hx hy ?_
  obtain ⟨r, hr, h⟩ := l.joints x hx k kx
  obtain ⟨r', hr', h'⟩ := l.joints y hy k ky
  rw [hr] at hr'
  cases hr'
  rcases h with h | ⟨h1, h2⟩ <;> rcases h' with h' | ⟨h1', h2'⟩
  · rw [h] at h'
    simpa using h'
  · exact absurd h (h1' _)
  · exact absurd h' (h1 _)
  · rw [h2] at h2'
    simpa using h2'

/-- The map holds at most 122 marks that are not joints and one joint for a stand: at most 127 marks (R18, R26, R128). -/
theorem JointLaws.bound {ex : Completing} {s : State} (l : JointLaws ex s) (stands : s.sc.stands.length ≤ Config.standCapacity) :
    s.sm.marks.length ≤ 127 := by
  have hc := length_filter_add (fun m : Mark => m.isJoint) s.sm.marks
  have hj : (s.sm.marks.filter fun m => m.isJoint).length ≤ s.sc.stands.length := by
    have nd : ((s.sm.marks.filter fun m => m.isJoint).map jointStand).Nodup := by
      refine List.Nodup.map_on (fun x hx y hy e => ?_) (List.Nodup.filter _ (List.Nodup.of_map _ l.ids))
      obtain ⟨hx, jx⟩ := List.mem_filter.mp hx
      obtain ⟨hy, jy⟩ := List.mem_filter.mp hy
      obtain ⟨k, kx⟩ := (isJoint_iff x).mp jx
      obtain ⟨k', ky⟩ := (isJoint_iff y).mp jy
      simp only [jointStand, kx, ky] at e
      subst e
      exact l.joint_unique hx hy kx ky
    have sub : ((s.sm.marks.filter fun m => m.isJoint).map jointStand) ⊆ (List.range s.sc.stands.length).map (· + 1) := by
      intro k hk
      obtain ⟨x, hx, rfl⟩ := List.mem_map.mp hk
      obtain ⟨hx, jx⟩ := List.mem_filter.mp hx
      obtain ⟨k, kx⟩ := (isJoint_iff x).mp jx
      obtain ⟨r, hr, _⟩ := l.joints x hx k kx
      have := standOf_lt hr
      simp only [jointStand, kx, List.mem_map, List.mem_range]
      exact ⟨k - 1, by omega, by omega⟩
    have := (nd.subperm sub).length_le
    simpa using this
  have hp := l.process
  simp only [Config.processTier, Config.standCapacity] at hp stands
  omega

/-- A new mark that is not a joint, admitted below its tier, keeps the laws of the joints. -/
theorem JointLaws.claim {ex : Completing} {s : State} (l : JointLaws ex s) (stands : s.sc.stands.length ≤ Config.standCapacity)
    {c : Claim} {unc : Nat} (hj : ∀ k, c.kind ≠ .joint k) (ht : refusedAtTier s c.kind = false) :
    JointLaws ex (Machine.admitMark c unc s).1 := by
  have hlen := l.bound stands
  have hperm := perm_placeMark
    ⟨freshId (s.sm.marks.map (·.id)) s.sm.marks.length s.sm.nextId, c.w, c.kind, unc⟩ s.sm.marks
  refine ⟨?_, ?_, fun m hm k hk => ?_, fun k r hr => l.unarmed k r hr⟩
  · refine (hperm.map (·.id)).nodup_iff.mpr (List.nodup_cons.mpr ⟨?_, l.ids⟩)
    have := freshId_not_mem (used := s.sm.marks.map (·.id)) (by simp; omega) s.sm.nextId
    simpa using this
  · refine le_trans (le_of_eq (hperm.filter _).length_eq) ?_
    have hn : s.sm.marks.length < Config.processTier := by
      unfold refusedAtTier tierOf at ht
      cases hc : c.kind with
      | joint k => exact absurd hc (hj k)
      | boundary a b t => simp only [hc, decide_eq_false_iff_not, not_le] at ht; exact ht
      | window x y z =>
        simp only [hc, decide_eq_false_iff_not, not_le] at ht
        have : (if isDefect x then Config.defectTier else Config.processTier) ≤ Config.processTier := by
          split <;> decide
        omega
    have hf := List.length_filter_le (fun m : Mark => !m.isJoint) s.sm.marks
    simp only [List.filter_cons]
    split
    · simp only [List.length_cons]; omega
    · omega
  · rcases (mem_placeMark _ m _).mp hm with rfl | hm
    · exact absurd hk (hj k)
    · exact l.joints m hm k hk

theorem Works.admitMark {q : Reach} {b s : State} (h : Works q b s) (c : Claim) {unc : Nat} (hr : s.me.running = true)
    (hu : (∀ m ∈ s.sm.marks, m.uncertainty ≤ uncertaintyMax) → unc ≤ uncertaintyMax) (hj : ∀ k, c.kind ≠ .joint k)
    (ht : refusedAtTier s c.kind = false) : Works q b (Machine.admitMark c unc s).1 := by
  unfold Machine.admitMark
  refine h.setMarks (fun l => pairwise_placeMark _ l) (fun l m hm => ?_) (fun hn _ => absurd hr (by simp [hn]))
    fun ex st l => l.claim st hj ht
  rcases (mem_placeMark _ m _).mp hm with rfl | hm
  · exact hu l
  · exact l m hm

theorem mem_of_foldl_better {s : State} (l : List Mark) (o : Option Mark) (m : Mark)
    (h : l.foldl (fun best m => match best with
      | none => some m
      | some b => some (betterCandidate s b m)) o = some m) : m ∈ l ∨ o = some m := by
  induction l generalizing o with
  | nil => exact .inr h
  | cons x t ih =>
    simp only [List.foldl_cons] at h
    rcases ih _ h with hm | hm
    · exact .inl (List.mem_cons_of_mem _ hm)
    · cases o with
      | none => simp at hm; exact .inl (by simp [hm])
      | some y =>
        simp only [Option.some.injEq] at hm
        unfold betterCandidate at hm
        split at hm
        · exact .inl (by simp [hm])
        · split at hm
          · exact .inr (by rw [hm])
          · split at hm
            · exact .inl (by simp [hm])
            · exact .inr (by rw [hm])

/-- A merge candidate is a window of the map (R28). -/
theorem mem_of_claimCandidate {s : State} {c : Claim} {e : Mark} {x : WindowCause × Source × Extent}
    (h : claimCandidate s c = some (e, x)) : e ∈ s.sm.marks ∧ e.isJoint = false := by
  unfold claimCandidate at h
  split at h
  · split at h
    · simp only [Option.map_eq_some_iff, Prod.mk.injEq] at h
      obtain ⟨m, hm, rfl, _⟩ := h
      unfold mergeCandidate at hm
      rcases mem_of_foldl_better _ _ _ hm with hm | hm
      · obtain ⟨hmem, hc⟩ := List.mem_filter.mp hm
        refine ⟨hmem, ?_⟩
        unfold isCandidate at hc
        unfold Mark.isJoint
        split at hc
        · next hk => simp [hk]
        · cases hc
      · cases hm
    · cases h
  · cases h

theorem Works.insertCore {q : Reach} {b s : State} (h : Works q b s) (c : Claim) (hj : ∀ k, c.kind ≠ .joint k) :
    Works q b (Machine.insertCore c s).1 := by
  unfold Machine.insertCore
  split
  · exact h
  · next hr =>
    dsimp only
    split
    · next hc =>
      have hm := mem_of_claimCandidate hc
      exact h.mergeInto hm.1 hm.2 _ _ _ _ fun l => markUncertainty_le l _
    · split
      · exact h.reportUntracked _
      · next ht =>
        exact (h.admitMark _ (by simpa using hr) (fun l => markUncertainty_le l _) hj (by simpa using ht)).takeNotice _

theorem Works.planRetired {q : Reach} {b s : State} (h : Works q b s) (id : MarkId) :
    Works q b (Machine.planRetired id s) := by
  unfold Machine.planRetired
  repeat' first
    | assumption | split | intro s h | with_reducible refine Works.setCs ?_ rfl

theorem JointLaws.drop {ex : Completing} {s : State} (l : JointLaws ex s) (id : MarkId) :
    JointLaws ex (Machine.dropMark id s) := by
  refine ⟨?_, ?_, fun m hm k hk => l.joints m (List.mem_filter.mp hm).1 k hk, fun k r hr => l.unarmed k r hr⟩
  · exact List.Nodup.sublist ((List.filter_sublist).map _) l.ids
  · exact le_trans (((List.filter_sublist (l := s.sm.marks)).filter _).length_le) l.process

theorem Works.dropMark {q : Reach} {b s : State} (h : Works q b s) (id : MarkId) : Works q b (Machine.dropMark id s) :=
  h.setMarks (fun l => l.filter _) (fun l m hm => l m (List.mem_filter.mp hm).1) (fun _ hs => by simp [hs])
    fun _ _ l => l.drop id

/-- A joint leaves the map and its stand's reference is cleared (R39, R128). -/
theorem Works.dropJoint {q : Reach} {b s : State} (h : Works q b s) {m : Mark} (hm : m ∈ s.sm.marks) {k : Nat}
    (hk : m.kind = .joint k) :
    Works q b (Machine.modStand k (fun r => { r with jointRef := none }) (Machine.dropMark m.id s)) := by
  have h1 := (Works.refl (q := .quiet) s).dropMark m.id
  refine h.trans ⟨?_, ?_, fun ex _ l => ?_, fun _ => by cases k <;> rfl⟩
  · cases k with
    | zero => exact h1.frame
    | succ i =>
      refine h1.frame.trans ?_
      constructor
      case stands => exact map_modify_eq standSettings (fun r => { r with jointRef := none }) (fun _ => rfl) s.sc.stands i
      all_goals rfl
  · cases k <;> exact le_refl _
  · have l1 := h1.laws ex (by simp) l
    have hj : JointLaws ex (Machine.modStand k (fun r => { r with jointRef := none }) (Machine.dropMark m.id s)) := by
      have e : (Machine.modStand k (fun r => { r with jointRef := none }) (Machine.dropMark m.id s)).sm =
          (Machine.dropMark m.id s).sm := modStand_sm _ _ _
      refine ⟨e ▸ l1.joints.ids, e ▸ l1.joints.process, fun x hx j hxj => ?_, fun j r hr hex hw => ?_⟩
      · rw [e] at hx
        obtain ⟨r, hr, hx'⟩ := l1.joints.joints x hx j hxj
        by_cases hjk : j = k
        · subst hjk
          obtain ⟨hmem, hne⟩ := List.mem_filter.mp hx
          exact absurd (congrArg Mark.id (l.joints.joint_unique hmem hm hxj hk)) (by simpa using hne)
        · exact ⟨r, by simp [hjk, hr], hx'⟩
      · by_cases hjk : j = k
        · subst hjk
          simp only [standOf_modStand, if_true, Option.map_eq_some_iff] at hr
          obtain ⟨r, _, rfl⟩ := hr
          rfl
        · exact l1.joints.unarmed j r (by simpa [hjk] using hr) hex hw
    cases k with
    | zero => exact l1
    | succ i =>
      exact
        { line := ⟨l1.line.directives, l1.line.reports, l1.line.orders, l1.line.mapOrder, l1.line.uncertainty,
            forall_modify (p := fun r : Stand => r.carry ≤ 999) (f := fun r => { r with jointRef := none }) (fun _ hc => hc) i
              l1.line.carry, l1.line.noMarks⟩
          stands := by simpa [Machine.modStand] using l1.stands
          joints := hj
          orders := l1.orders.of_feeds rfl
          rolls := nodup_flatMap_modify (fun r _ => List.Sublist.refl _) l1.rolls
          latches := l1.latches }

theorem Works.dropCredit {q : Reach} {b s : State} (h : Works q b s) (id : MarkId) :
    Works q b (Machine.dropCredit id s) := by
  unfold Machine.dropCredit
  repeat' first
    | assumption | split | intro s h | refine Works.setOs ?_ rfl

theorem Works.noticeRoom {q : Reach} {b s : State} (h : Works q b s) {ev : State → State} (hev : ∀ s, Works q b s → Works q b (ev s)) :
    Works q b (Machine.noticeRoom ev s) := by
  unfold Machine.noticeRoom
  repeat' first
    | assumption | with_reducible apply hev | split

theorem mem_of_markOf {s : State} {id : MarkId} {m : Mark} (h : markOf s id = some m) : m ∈ s.sm.marks :=
  List.mem_of_find?_eq_some h

theorem id_of_markOf {s : State} {id : MarkId} {m : Mark} (h : markOf s id = some m) : m.id = id := by
  simpa using List.find?_some h

theorem Works.retire {q : Reach} {b s : State} (h : Works q b s) {ev : State → State} (hev : ∀ s, Works q b s → Works q b (ev s))
    {m : Mark} (hm : m ∈ s.sm.marks) : Works q b (Machine.retire ev m s) := by
  have h1 : Works q b (match m.kind with
      | .joint k => jointRetired ev k (Machine.dropMark m.id s)
      | _ => Machine.dropMark m.id s) := by
    split
    · next k hk => exact (h.dropJoint hm hk).examinePending hev k
    · exact h.dropMark _
  unfold Machine.retire
  dsimp only
  split
  · exact (((h1.noticeRoom hev).examineTracking).dropCredit _).planRetired _
  · exact ((h1.noticeRoom hev).examineTracking).dropCredit _

theorem Works.testRetirement {q : Reach} {b s : State} (h : Works q b s) {ev : State → State} (hev : ∀ s, Works q b s → Works q b (ev s)) (id : MarkId) :
    Works q b (Machine.testRetirement ev id s) := by
  unfold Machine.testRetirement
  split
  · exact h
  · next m hm =>
    split
    · exact h.retire hev (mem_of_markOf hm)
    · exact h

theorem Works.retireAll {q : Reach} {b s : State} (h : Works q b s) {ev : State → State} (hev : ∀ s, Works q b s → Works q b (ev s)) :
    Works q b (Machine.retireAll ev s) := by
  unfold Machine.retireAll
  repeat' first
    | assumption | with_reducible apply hev | with_reducible apply Works.testRetirement
    | with_reducible apply Works.foldl | split | intro s x h

theorem Works.insertMark {q : Reach} {b s : State} (h : Works q b s) {ev : State → State} (hev : ∀ s, Works q b s → Works q b (ev s))
    {c : Claim} (hj : ∀ k, c.kind ≠ .joint k) : Works q b (Machine.insertMark ev c s).1 := by
  unfold Machine.insertMark
  dsimp only
  have h1 : Works q b (if (Machine.insertCore c s).2.2 = true then ev (Machine.insertCore c s).1 else (Machine.insertCore c s).1) := by
    split
    · exact hev _ (h.insertCore c hj)
    · exact h.insertCore c hj
  split
  · exact h1.testRetirement hev _
  · exact h1

/-- A window named by its creator is the mark its id names (R34). -/
theorem ownWindow_spec {s : State} {id : MarkId} {mine : WindowCause → Source → Bool} {m : Mark} {c : WindowCause} {src : Source}
    {x : Extent} (h : ownWindow s id mine = some (m, c, src, x)) : markOf s id = some m ∧ m.kind = .window c src x := by
  unfold ownWindow at h
  split at h
  · cases h
  · next m' hm =>
    split at h
    · next hk =>
      split at h
      · simp only [Option.some.injEq, Prod.mk.injEq] at h
        obtain ⟨rfl, rfl, rfl, rfl⟩ := h
        exact ⟨hm, hk⟩
      · cases h
    · cases h

/-- A window's extent set anew, at the window that a claim of its creator names. -/
theorem Works.setExtent {q : Reach} {b s : State} (h : Works q b s) {id : MarkId} {mine : WindowCause → Source → Bool} {m : Mark}
    {c : WindowCause} {src : Source} {x : Extent} (ho : ownWindow s id mine = some (m, c, src, x)) (y : Extent) :
    Works q b (Machine.modMark id (fun m => { m with kind := .window c src y }) s) :=
  h.modMark (fun _ => rfl) (fun l m hm => l m hm) (fun _ => rfl) fun nd m' hmem hid => by
    obtain ⟨hm, hk⟩ := ownWindow_spec ho
    rw [mark_eq_of_id nd hmem (mem_of_markOf hm) (hid.trans (id_of_markOf hm).symm)]
    exact SameJoint.windows hk rfl

theorem Works.closeWindow {q : Reach} {b s : State} (h : Works q b s) {ev : State → State} (hev : ∀ s, Works q b s → Works q b (ev s))
    (id : MarkId) (mine : WindowCause → Source → Bool) (far : Option WebPos) :
    Works q b (Machine.closeWindow ev id mine far s).1 := by
  unfold Machine.closeWindow
  split
  · exact h
  · exact h
  · next ho =>
    dsimp only
    refine Works.testRetirement ?_ hev _
    split
    · exact (h.setExtent ho _).reportTruncated _ _ _ _
    · exact h.setExtent ho _

theorem Works.shortenWindow {q : Reach} {b s : State} (h : Works q b s) (id : MarkId) (zone length : Nat) :
    Works q b (Machine.shortenWindow id zone length s) := by
  unfold Machine.shortenWindow
  split
  · next ho => exact h.setExtent ho _
  · exact h

theorem Works.removeBoundary {q : Reach} {b s : State} (h : Works q b s) {ev : State → State} (hev : ∀ s, Works q b s → Works q b (ev s)) (id : MarkId) :
    Works q b (Machine.removeBoundary ev id s).1 := by
  unfold Machine.removeBoundary
  repeat' first
    | assumption | with_reducible apply hev | with_reducible apply Works.examineTracking
    | with_reducible apply Works.dropMark | with_reducible apply Works.noticeRoom | split

theorem Works.raiseUncertainty {q : Reach} {b s : State} (h : Works q b s) (amount : Nat) :
    Works q b (Machine.raiseUncertainty amount s) := by
  refine h.setMarks (fun l => ?_) (fun _ m hm => ?_) (fun _ hs => by simp [hs]) ?_
  · rw [List.pairwise_map]
    exact l
  · obtain ⟨x, _, rfl⟩ := List.mem_map.mp hm
    exact min_le_left _ _
  · exact fun ex _ l => l.mapMarks (f := fun m => { m with uncertainty := satAdd uncertaintyMax m.uncertainty amount }) (fun _ => rfl)
      (fun m _ => SameJoint.of_kind rfl) rfl rfl

/-! ## Zones.lean -/

theorem Works.placeSetpoint {q : Reach} {b s : State} (h : Works q b s) (n : Nat) (v : Int) :
    Works q b (Machine.placeSetpoint n v s) := by
  unfold Machine.placeSetpoint
  repeat' first
    | assumption | with_reducible apply Works.placeDirective | with_reducible apply Works.modZone | exact fun _ => rfl
    | split

theorem Works.stepRamp {q : Reach} {b s : State} (h : Works q b s) (n : Nat) :
    Works q b (Machine.stepRamp n s) := by
  unfold Machine.stepRamp
  repeat' first
    | assumption | with_reducible apply Works.modZone | with_reducible apply Works.placeSetpoint | exact fun _ => rfl
    | split | dsimp only

theorem Works.shortenRampWindow {q : Reach} {b s : State} (h : Works q b s) (n : Nat) (r : Ramp) :
    Works q b (Machine.shortenRampWindow n r s) := by
  unfold Machine.shortenRampWindow
  repeat' first
    | assumption | with_reducible apply Works.shortenWindow | split

theorem Works.endRampEarly {q : Reach} {b s : State} (h : Works q b s) (n : Nat) :
    Works q b (Machine.endRampEarly n s) := by
  unfold Machine.endRampEarly
  repeat' first
    | assumption | with_reducible apply Works.modZone | with_reducible apply Works.stepRamp
    | with_reducible apply Works.shortenRampWindow | exact fun _ => rfl | split | dsimp only

theorem Works.rampWindow {q : Reach} {b s : State} (h : Works q b s) {ev : State → State} (hev : ∀ s, Works q b s → Works q b (ev s)) (n : Nat) (offset : Nat) (stages : List Stage) :
    Works q b (Machine.rampWindow ev n offset stages s) := by
  unfold Machine.rampWindow
  repeat' first
    | assumption | with_reducible apply hev | with_reducible apply Works.modZone | with_reducible refine Works.insertMark ?_ (by assumption) ?_ | exact fun _ hk => MarkKind.noConfusion hk
    | exact fun _ => rfl | split | dsimp only

theorem Works.startRamp {q : Reach} {b s : State} (h : Works q b s) {ev : State → State} (hev : ∀ s, Works q b s → Works q b (ev s)) (n : Nat) (t : Int) (boundary : Option MarkId) :
    Works q b (Machine.startRamp ev n t boundary s) := by
  unfold Machine.startRamp
  repeat' first
    | assumption | with_reducible apply hev | with_reducible apply Works.modZone
    | with_reducible apply Works.placeSetpoint | with_reducible apply Works.rampWindow | exact fun _ => rfl | split
    | dsimp only

theorem Works.overtake {q : Reach} {b s : State} (h : Works q b s) {ev : State → State} (hev : ∀ s, Works q b s → Works q b (ev s)) (n : Nat) (t : Int) (boundary : Option MarkId) :
    Works q b (Machine.overtake ev n t boundary s) := by
  unfold Machine.overtake
  repeat' first
    | assumption | with_reducible apply hev | with_reducible apply Works.endRampEarly
    | with_reducible apply Works.startRamp | split | dsimp only

theorem Works.setAtOnce {q : Reach} {b s : State} (h : Works q b s) (n : Nat) (v : Int) :
    Works q b (Machine.setAtOnce n v s) := by
  unfold Machine.setAtOnce
  repeat' first
    | assumption | with_reducible apply Works.modZone | with_reducible apply Works.placeSetpoint
    | with_reducible apply Works.endRampEarly | exact fun _ => rfl

theorem Works.zoneApproach {q : Reach} {b s : State} (h : Works q b s) {ev : State → State} (hev : ∀ s, Works q b s → Works q b (ev s)) (n : Nat) (id : MarkId) (toOrder : OrderId) (atInsertion : Bool) :
    Works q b (Machine.zoneApproach ev n id toOrder atInsertion s) := by
  unfold Machine.zoneApproach
  repeat' first
    | assumption | with_reducible apply hev | with_reducible apply Works.modZone | with_reducible apply Works.overtake
    | with_reducible apply Works.setAtOnce | exact fun _ => rfl | split | dsimp only

theorem Works.retarget {q : Reach} {b s : State} (h : Works q b s) {ev : State → State} (hev : ∀ s, Works q b s → Works q b (ev s)) (n : Nat) (t : Int) :
    Works q b (Machine.retarget ev n t s) := by
  unfold Machine.retarget
  repeat' first
    | assumption | with_reducible apply hev | with_reducible apply Works.modZone | with_reducible apply Works.startRamp
    | with_reducible apply Works.overtake | exact fun _ => rfl | split

theorem Works.applyGrade {q : Reach} {b s : State} (h : Works q b s) {ev : State → State} (hev : ∀ s, Works q b s → Works q b (ev s)) (g : Nat) :
    Works q b (Machine.applyGrade ev g s) := by
  unfold Machine.applyGrade
  repeat' first
    | assumption | with_reducible apply hev | with_reducible apply Works.retarget | with_reducible apply Works.foldl
    | split | intro s x h

theorem Works.withdrawZone {q : Reach} {b s : State} (h : Works q b s) {ev : State → State} (hev : ∀ s, Works q b s → Works q b (ev s)) (id : MarkId) (n : Nat) :
    Works q b (Machine.withdrawZone ev id n s) := by
  unfold Machine.withdrawZone
  repeat' first
    | assumption | with_reducible apply hev | with_reducible apply Works.modZone
    | with_reducible apply Works.endRampEarly | with_reducible apply Works.retarget | exact fun _ => rfl | split

theorem Works.standbyEntry {q : Reach} {b s : State} (h : Works q b s) (n : Nat) :
    Works q b (Machine.standbyEntry n s) := by
  unfold Machine.standbyEntry
  repeat' first
    | assumption | with_reducible apply Works.modZone | with_reducible apply Works.placeSetpoint
    | with_reducible apply Works.endRampEarly | exact fun _ => rfl | split

theorem Works.standbyExit {q : Reach} {b s : State} (h : Works q b s) (n : Nat) :
    Works q b (Machine.standbyExit n s) := by
  unfold Machine.standbyExit
  repeat' first
    | assumption | with_reducible apply Works.modZone | with_reducible apply Works.placeSetpoint | exact fun _ => rfl
    | split

theorem Works.zonesNewCount {q : Reach} {b s : State} (h : Works q b s) :
    Works q b (Machine.zonesNewCount s) := by
  unfold Machine.zonesNewCount
  repeat' first
    | assumption | with_reducible apply Works.stepRamp | with_reducible apply Works.foldl | split | intro s x h

/-! ## Knives.lean -/

theorem Works.knifeReport {q : Reach} {b s : State} (h : Works q b s) (k : KnifeId) (e : KnifeEvent) (before : KnifeState) (boundary : Option MarkId) :
    Works q b (Machine.knifeReport k e before boundary s) := by
  unfold Machine.knifeReport
  repeat' first
    | assumption | with_reducible apply Works.report

theorem Works.giveLayout {q : Reach} {b s : State} (h : Works q b s) (k : KnifeId) (l : Layout) (order : OrderId) :
    Works q b (Machine.giveLayout k l order s) := by
  unfold Machine.giveLayout
  repeat' first
    | assumption | with_reducible apply Works.direct | with_reducible apply Works.modKnife

theorem Works.serveEngage {q : Reach} {b s : State} (h : Works q b s) (k : KnifeId) :
    Works q b (Machine.serveEngage k s) := by
  unfold Machine.serveEngage
  repeat' first
    | assumption | with_reducible apply Works.direct | with_reducible apply Works.modKnife | split

theorem Works.closeKnifeWindow {q : Reach} {b s : State} (h : Works q b s) {ev : State → State} (hev : ∀ s, Works q b s → Works q b (ev s)) (k : KnifeId) (far : Option WebPos) :
    Works q b (Machine.closeKnifeWindow ev k far s).1 := by
  unfold Machine.closeKnifeWindow
  repeat' first
    | assumption | with_reducible apply hev | with_reducible apply Works.modKnife
    | with_reducible apply Works.closeWindow | split

theorem Works.closeHeldWindow {q : Reach} {b s : State} (h : Works q b s) {ev : State → State} (hev : ∀ s, Works q b s → Works q b (ev s)) (k : KnifeId) :
    Works q b (Machine.closeHeldWindow ev k s) := h.closeKnifeWindow hev k none

theorem Works.openLate {q : Reach} {b s : State} (h : Works q b s) {ev : State → State} (hev : ∀ s, Works q b s → Works q b (ev s)) (k : KnifeId) :
    Works q b (Machine.openLate ev k s) := by
  unfold Machine.openLate
  repeat' first
    | assumption | with_reducible apply hev | with_reducible apply Works.modKnife | with_reducible apply Works.closeHeldWindow
    | with_reducible refine Works.insertMark ?_ (by assumption) ?_ | exact fun _ hk => MarkKind.noConfusion hk | with_reducible apply Works.knifeReport | split

theorem Works.engageWaits {q : Reach} {b s : State} (h : Works q b s) (k : KnifeId) (mark : Option MarkId) (w : WebPos) :
    Works q b (Machine.engageWaits k mark w s) := by
  unfold Machine.engageWaits
  repeat' first
    | assumption | with_reducible apply Works.modKnife

theorem Works.knifeAssign {q : Reach} {b s : State} (h : Works q b s) (a : KnifeAnswer) (current : Option OrderId) (n : OrderId) (l : Layout) :
    Works q b (Machine.knifeAssign a current n l s) := by
  unfold Machine.knifeAssign
  repeat' first
    | assumption | with_reducible apply Works.modKnife | with_reducible apply Works.giveLayout | split | dsimp only

theorem Works.knifeApproach {q : Reach} {b s : State} (h : Works q b s) {ev : State → State} (hev : ∀ s, Works q b s → Works q b (ev s)) (k : KnifeId) (b0 : BoundaryRef) (fromOrder : Option OrderId) (toOrder : OrderId) :
    Works q b (Machine.knifeApproach ev k b0 fromOrder toOrder s) := by
  unfold Machine.knifeApproach
  repeat' first
    | assumption | with_reducible apply hev | with_reducible apply Works.direct | with_reducible apply Works.modKnife
    | with_reducible apply Works.openLate | with_reducible apply Works.engageWaits | split | dsimp only

theorem Works.fromArrival {q : Reach} {b s : State} (h : Works q b s) {ev : State → State} (hev : ∀ s, Works q b s → Works q b (ev s)) (k : KnifeId) (b0 : BoundaryRef) (c : OrderId) :
    Works q b (Machine.fromArrival ev k b0 c s) := by
  unfold Machine.fromArrival
  repeat' first
    | assumption | with_reducible apply hev | with_reducible apply Works.direct | with_reducible apply Works.modKnife
    | with_reducible apply Works.closeKnifeWindow | split | dsimp only

theorem Works.toArrival {q : Reach} {b s : State} (h : Works q b s) {ev : State → State} (hev : ∀ s, Works q b s → Works q b (ev s)) (k : KnifeId) (b0 : BoundaryRef) :
    Works q b (Machine.toArrival ev k b0 s) := by
  unfold Machine.toArrival
  repeat' first
    | assumption | with_reducible apply hev | with_reducible apply Works.modKnife | with_reducible apply Works.openLate
    | with_reducible apply Works.engageWaits | split | dsimp only

theorem Works.knifeArrival {q : Reach} {b s : State} (h : Works q b s) {ev : State → State} (hev : ∀ s, Works q b s → Works q b (ev s)) (k : KnifeId) (b0 : BoundaryRef) (fromOrder : Option OrderId) (toOrder : OrderId) :
    Works q b (Machine.knifeArrival ev k b0 fromOrder toOrder s) := by
  unfold Machine.knifeArrival
  repeat' first
    | assumption | with_reducible apply hev | with_reducible apply Works.modKnife
    | with_reducible apply Works.fromArrival | with_reducible apply Works.toArrival | split

theorem Works.knifeReadyRises {q : Reach} {b s : State} (h : Works q b s) {ev : State → State} (hev : ∀ s, Works q b s → Works q b (ev s)) (k : KnifeId) :
    Works q b (Machine.knifeReadyRises ev k s) := by
  unfold Machine.knifeReadyRises
  repeat' first
    | assumption | with_reducible apply hev | with_reducible apply Works.modKnife
    | with_reducible apply Works.serveEngage | split

theorem Works.knifeReadyFalls {q : Reach} {b s : State} (h : Works q b s) (k : KnifeId) :
    Works q b (Machine.knifeReadyFalls k s) := by
  unfold Machine.knifeReadyFalls
  repeat' first
    | assumption | with_reducible apply Works.modKnife | split

theorem Works.endLate {q : Reach} {b s : State} (h : Works q b s) {ev : State → State} (hev : ∀ s, Works q b s → Works q b (ev s)) (k : KnifeId) (before : KnifeState) (e : Option Engage) :
    Works q b (Machine.endLate ev k before e s) := by
  unfold Machine.endLate
  repeat' first
    | assumption | with_reducible apply hev | with_reducible apply Works.modKnife
    | with_reducible apply Works.knifeReport | with_reducible apply Works.closeKnifeWindow | split | dsimp only

theorem Works.knifeEngagedRises {q : Reach} {b s : State} (h : Works q b s) {ev : State → State} (hev : ∀ s, Works q b s → Works q b (ev s)) (k : KnifeId) :
    Works q b (Machine.knifeEngagedRises ev k s) := by
  unfold Machine.knifeEngagedRises
  repeat' first
    | assumption | with_reducible apply hev | with_reducible apply Works.modKnife | with_reducible apply Works.endLate
    | split | dsimp only

theorem Works.liftDone {q : Reach} {b s : State} (h : Works q b s) {ev : State → State} (hev : ∀ s, Works q b s → Works q b (ev s)) (k : KnifeId) (b0 : BoundaryRef) :
    Works q b (Machine.liftDone ev k b0 s) := by
  unfold Machine.liftDone
  repeat' first
    | assumption | with_reducible apply hev | with_reducible apply Works.modKnife | split | dsimp only

theorem Works.liftUnasked {q : Reach} {b s : State} (h : Works q b s) {ev : State → State} (hev : ∀ s, Works q b s → Works q b (ev s)) (k : KnifeId) :
    Works q b (Machine.liftUnasked ev k s) := by
  unfold Machine.liftUnasked
  repeat' first
    | assumption | with_reducible apply hev | with_reducible apply Works.modKnife
    | with_reducible apply Works.knifeReport | with_reducible apply Works.serveEngage
    | with_reducible apply Works.openLate | with_reducible apply Works.engageWaits | split | dsimp only

theorem Works.knifeLiftedRises {q : Reach} {b s : State} (h : Works q b s) {ev : State → State} (hev : ∀ s, Works q b s → Works q b (ev s)) (k : KnifeId) :
    Works q b (Machine.knifeLiftedRises ev k s) := by
  unfold Machine.knifeLiftedRises
  repeat' first
    | assumption | with_reducible apply hev | with_reducible apply Works.modKnife | with_reducible apply Works.liftDone
    | with_reducible apply Works.liftUnasked | split | dsimp only

theorem Works.openKnifeFault {q : Reach} {b s : State} (h : Works q b s) {ev : State → State} (hev : ∀ s, Works q b s → Works q b (ev s)) (k : KnifeId) :
    Works q b (Machine.openKnifeFault ev k s).1 := by
  unfold Machine.openKnifeFault
  repeat' first
    | assumption | with_reducible apply hev | with_reducible apply Works.modKnife
    | with_reducible refine Works.insertMark ?_ (by assumption) ?_ | exact fun _ hk => MarkKind.noConfusion hk | split | dsimp only

theorem Works.knifeFaultRises {q : Reach} {b s : State} (h : Works q b s) {ev : State → State} (hev : ∀ s, Works q b s → Works q b (ev s)) (k : KnifeId) :
    Works q b (Machine.knifeFaultRises ev k s) := by
  unfold Machine.knifeFaultRises
  repeat' first
    | assumption | with_reducible apply hev | with_reducible apply Works.stopClaim
    | with_reducible apply Works.claimStop | with_reducible apply Works.modKnife
    | with_reducible apply Works.knifeReport | with_reducible apply Works.openKnifeFault | split | dsimp only

theorem Works.resendLayout {q : Reach} {b s : State} (h : Works q b s) {ev : State → State} (hev : ∀ s, Works q b s → Works q b (ev s)) (k : KnifeId) (id : OrderId) :
    Works q b (Machine.resendLayout ev k id s).1 := by
  unfold Machine.resendLayout
  repeat' first
    | assumption | with_reducible apply hev | with_reducible apply Works.modKnife
    | with_reducible apply Works.giveLayout | with_reducible apply Works.openLate
    | with_reducible apply Works.engageWaits | split | dsimp only

theorem Works.knifeFaultFalls {q : Reach} {b s : State} (h : Works q b s) {ev : State → State} (hev : ∀ s, Works q b s → Works q b (ev s)) (k : KnifeId) :
    Works q b (Machine.knifeFaultFalls ev k s) := by
  unfold Machine.knifeFaultFalls
  repeat' first
    | assumption | with_reducible apply hev | with_reducible apply Works.modKnife
    | with_reducible apply Works.knifeReport | with_reducible apply Works.closeKnifeWindow
    | with_reducible apply Works.resendLayout | split | dsimp only

theorem Works.withdrawKnife {q : Reach} {b s : State} (h : Works q b s) {ev : State → State} (hev : ∀ s, Works q b s → Works q b (ev s)) (id : MarkId) (k : KnifeId) :
    Works q b (Machine.withdrawKnife ev id k s) := by
  unfold Machine.withdrawKnife
  repeat' first
    | assumption | with_reducible apply hev | with_reducible apply Works.direct | with_reducible apply Works.modKnife
    | with_reducible apply Works.closeKnifeWindow | split | dsimp only

theorem Works.knifeRelease {q : Reach} {b s : State} (h : Works q b s) (n : OrderId) :
    Works q b (Machine.knifeRelease n s) := by
  unfold Machine.knifeRelease
  repeat' first
    | assumption | with_reducible apply Works.modKnife

theorem Works.knifeStart {q : Reach} {b s : State} (h : Works q b s) (k : KnifeId) :
    Works q b (Machine.knifeStart k s) := by
  unfold Machine.knifeStart
  repeat' first
    | assumption | with_reducible apply Works.modKnife

theorem Works.knifeRestart {q : Reach} {b s : State} (h : Works q b s) (k : KnifeId) :
    Works q b (Machine.knifeRestart k s) := by
  unfold Machine.knifeRestart
  repeat' first
    | assumption | with_reducible apply Works.direct | with_reducible apply Works.modKnife | split

/-! ## Stacks.lean -/

theorem Works.cutoffApproach {q : Reach} {b s : State} (h : Works q b s) (b0 : BoundaryRef) (fromOrder : Option OrderId) (toOrder : OrderId) :
    Works q b (Machine.cutoffApproach b0 fromOrder toOrder s) := by
  unfold Machine.cutoffApproach
  repeat' first
    | assumption | with_reducible apply Works.direct | split | dsimp only | with_reducible refine Works.setCs ?_ rfl

theorem Works.withdrawPlan {q : Reach} {b s : State} (h : Works q b s) (id : MarkId) :
    Works q b (Machine.withdrawPlan id s) := by
  unfold Machine.withdrawPlan
  repeat' first
    | assumption | with_reducible apply Works.direct | split | dsimp only | intro s h
    | with_reducible refine Works.setCs ?_ rfl

theorem Works.modCounters {q : Reach} {b s : State} (h : Works q b s) (f : CutCounters → CutCounters) :
    Works q b (Machine.modCounters f s) := by
  unfold Machine.modCounters
  repeat' first
    | assumption | split | with_reducible refine Works.setCs ?_ rfl

theorem Works.prunePlan {q : Reach} {b s : State} (h : Works q b s) (e : WebPos) (trim : Bool) :
    Works q b (Machine.prunePlan e trim s) := by
  unfold Machine.prunePlan
  repeat' first
    | assumption | with_reducible apply Works.modCounters | split | dsimp only
    | with_reducible refine Works.setCs ?_ rfl

theorem Works.setGate {q : Reach} {b s : State} (h : Works q b s) (reject : Bool) (lastChange : Option WebPos) :
    Works q b (Machine.setGate reject lastChange s) := by
  unfold Machine.setGate
  repeat' first
    | assumption | split | with_reducible refine Works.setCs ?_ rfl

theorem Works.gateAt {q : Reach} {b s : State} (h : Works q b s) (reject : Bool) (start : WebPos) :
    Works q b (Machine.gateAt reject start s) := by
  unfold Machine.gateAt
  repeat' first
    | assumption | with_reducible apply Works.direct | with_reducible apply Works.setGate

theorem Works.cutoffFaultRises {q : Reach} {b s : State} (h : Works q b s) :
    Works q b (Machine.cutoffFaultRises s) := by
  unfold Machine.cutoffFaultRises
  repeat' first
    | assumption | with_reducible apply Works.direct | with_reducible apply Works.setGate | split | dsimp only
    | with_reducible refine Works.setCs ?_ rfl

theorem Works.modStacker {q : Reach} {b s : State} (h : Works q b s) (f : Stacker → Stacker) :
    Works q b (Machine.modStacker f s) := by
  unfold Machine.modStacker
  repeat' first
    | assumption | split | with_reducible refine Works.setCs ?_ rfl

theorem Works.stackReport {q : Reach} {b s : State} (h : Works q b s) (k : Stack) (c : StackClose) :
    Works q b (Machine.stackReport k c s) := by
  unfold Machine.stackReport
  repeat' first
    | assumption | with_reducible apply Works.report

theorem Works.closeCurrent {q : Reach} {b s : State} (h : Works q b s) (c : StackClose) :
    Works q b (Machine.closeCurrent c s) := by
  unfold Machine.closeCurrent
  repeat' first
    | assumption | with_reducible apply Works.direct | with_reducible apply Works.modStacker
    | with_reducible apply Works.stackReport | split

theorem Works.openStack {q : Reach} {b s : State} (h : Works q b s) (o : Order) (e : WebPos) :
    Works q b (Machine.openStack o e s).1 := by
  unfold Machine.openStack
  repeat' first
    | assumption | split | intro s h | with_reducible refine Works.setCs ?_ rfl

theorem Works.markDeck {q : Reach} {b s : State} (h : Works q b s) (c : StackClose) :
    Works q b (Machine.markDeck c s) := by
  unfold Machine.markDeck
  repeat' first
    | assumption | with_reducible apply Works.modStacker

theorem Works.countCurrent {q : Reach} {b s : State} (h : Works q b s) (o : Order) (e : WebPos) :
    Works q b (Machine.countCurrent o e s) := by
  unfold Machine.countCurrent
  repeat' first
    | assumption | with_reducible apply Works.modStacker | with_reducible apply Works.closeCurrent
    | with_reducible apply Works.openStack | split | dsimp only

theorem Works.countDeck {q : Reach} {b s : State} (h : Works q b s) (o : Order) (e : WebPos) :
    Works q b (Machine.countDeck o e s) := by
  unfold Machine.countDeck
  repeat' first
    | assumption | with_reducible apply Works.modStacker | with_reducible apply Works.openStack
    | with_reducible apply Works.markDeck | split | dsimp only

theorem Works.countSheet {q : Reach} {b s : State} (h : Works q b s) (o : Order) (e : WebPos) :
    Works q b (Machine.countSheet o e s) := by
  unfold Machine.countSheet
  repeat' first
    | assumption | with_reducible apply Works.countCurrent | with_reducible apply Works.countDeck | split

theorem Works.stackOrderEnd {q : Reach} {b s : State} (h : Works q b s) (id : OrderId) :
    Works q b (Machine.stackOrderEnd id s) := by
  unfold Machine.stackOrderEnd
  repeat' first
    | assumption | with_reducible apply Works.closeCurrent | with_reducible apply Works.markDeck | split

theorem Works.promoteDeck {q : Reach} {b s : State} (h : Works q b s) :
    Works q b (Machine.promoteDeck s) := by
  unfold Machine.promoteDeck
  repeat' first
    | assumption | with_reducible apply Works.modStacker | with_reducible apply Works.closeCurrent | split | dsimp only

theorem Works.transferDone {q : Reach} {b s : State} (h : Works q b s) :
    Works q b (Machine.transferDone s) := by
  unfold Machine.transferDone
  repeat' first
    | assumption | with_reducible apply Works.modStacker | with_reducible apply Works.promoteDeck | split

theorem Works.stackerRecovery {q : Reach} {b s : State} (h : Works q b s) :
    Works q b (Machine.stackerRecovery s) := by
  unfold Machine.stackerRecovery
  repeat' first
    | assumption | with_reducible apply Works.modStacker | with_reducible apply Works.promoteDeck | split | dsimp only

theorem Works.transferDoneChange {q : Reach} {b s : State} (h : Works q b s) (rises : Bool) :
    Works q b (Machine.transferDoneChange rises s) := by
  unfold Machine.transferDoneChange
  repeat' first
    | assumption | with_reducible apply Works.transferDone | with_reducible apply Works.stackerRecovery | split

theorem Works.stackerFaultChange {q : Reach} {b s : State} (h : Works q b s) :
    Works q b (Machine.stackerFaultChange s) := by
  unfold Machine.stackerFaultChange
  repeat' first
    | assumption | with_reducible apply Works.stackerRecovery | split

theorem Works.transferExpiry {q : Reach} {b s : State} (h : Works q b s) :
    Works q b (Machine.transferExpiry s) := by
  unfold Machine.transferExpiry
  repeat' first
    | assumption | with_reducible apply Works.stopClaim | with_reducible apply Works.claimStop
    | with_reducible apply Works.modStacker | with_reducible apply Works.stackReport | split

theorem Works.cutsStart {q : Reach} {b s : State} (h : Works q b s) :
    Works q b (Machine.cutsStart s) := by
  unfold Machine.cutsStart
  repeat' first
    | assumption | with_reducible apply Works.direct | with_reducible apply Works.setGate | split | dsimp only
    | with_reducible refine Works.setCs ?_ rfl

theorem Works.abandonStack {q : Reach} {b s : State} (h : Works q b s) (k : Option Stack) :
    Works q b (Machine.abandonStack k s) := by
  unfold Machine.abandonStack
  repeat' first
    | assumption | with_reducible apply Works.stackReport | split

/-! ## Thresholds.lean -/

theorem Works.handThreshold {q : Reach} {b s : State} (h : Works q b s) {release : BoundaryRef → Option OrderId → OrderId → State → State} (hrel : ∀ x f t s, Works q b s → Works q b (release x f t s)) {ev : State → State} (hev : ∀ s, Works q b s → Works q b (ev s)) (b0 : BoundaryRef) (fromOrder : Option OrderId) (toOrder : OrderId) (atInsertion : Bool) (t : Threshold) :
    Works q b (Machine.handThreshold release ev b0 fromOrder toOrder atInsertion t s) := by
  unfold Machine.handThreshold
  repeat' first
    | assumption | with_reducible apply hev | with_reducible apply hrel | with_reducible apply Works.zoneApproach
    | with_reducible apply Works.knifeApproach | with_reducible apply Works.knifeArrival
    | with_reducible apply Works.cutoffApproach | split

theorem markTaken_same (t : Threshold) (m : Mark) : (markTaken t m).w = m.w ∧ (markTaken t m).uncertainty = m.uncertainty ∧
    (markTaken t m).id = m.id ∧ SameJoint m (markTaken t m) := by
  unfold markTaken
  split
  · next h => exact ⟨rfl, rfl, rfl, .inr ⟨by simp [Mark.isJoint, h], rfl⟩⟩
  · exact ⟨rfl, rfl, rfl, SameJoint.of_kind rfl⟩

theorem Works.takeThreshold {q : Reach} {b s : State} (h : Works q b s)
    {release : BoundaryRef → Option OrderId → OrderId → State → State}
    (hrel : ∀ x f t s, Works q b s → Works q b (release x f t s)) {ev : State → State} (hev : ∀ s, Works q b s → Works q b (ev s))
    (atInsertion : Bool) (id : MarkId) (t : Threshold) :
    Works q b (Machine.takeThreshold release ev atInsertion id t s) := by
  unfold Machine.takeThreshold
  split
  · exact h
  · split
    · split
      · exact h
      · exact (h.modMark (fun m => (markTaken_same t m).1) (fun l m hm => (markTaken_same t m).2.1 ▸ l m hm)
          (fun m => (markTaken_same t m).2.2.1) fun _ m _ _ => (markTaken_same t m).2.2.2).handThreshold hrel hev _ _ _ _ _
    · exact h

theorem Works.takeMarkThresholds {q : Reach} {b s : State} (h : Works q b s) {release : BoundaryRef → Option OrderId → OrderId → State → State} (hrel : ∀ x f t s, Works q b s → Works q b (release x f t s)) {ev : State → State} (hev : ∀ s, Works q b s → Works q b (ev s)) (atInsertion : Bool) (id : MarkId) :
    Works q b (Machine.takeMarkThresholds release ev atInsertion id s) := by
  unfold Machine.takeMarkThresholds
  repeat' first
    | assumption | with_reducible apply hev | with_reducible apply hrel | with_reducible apply Works.takeThreshold
    | with_reducible apply Works.foldl | split | intro s x h

theorem Works.insertBoundary {q : Reach} {b s : State} (h : Works q b s) {release : BoundaryRef → Option OrderId → OrderId → State → State} (hrel : ∀ x f t s, Works q b s → Works q b (release x f t s)) {ev : State → State} (hev : ∀ s, Works q b s → Works q b (ev s)) (w : WebPos) (fromOrder : Option OrderId) (toOrder : OrderId) :
    Works q b (Machine.insertBoundary release ev w fromOrder toOrder s) := by
  unfold Machine.insertBoundary
  repeat' first
    | assumption | with_reducible apply hev | with_reducible apply hrel | with_reducible refine Works.insertCore ?_ _ ?_ | exact fun _ hk => MarkKind.noConfusion hk
    | with_reducible apply Works.testRetirement | with_reducible apply Works.takeMarkThresholds | split | dsimp only

theorem Works.mapNewCount {q : Reach} {b s : State} (h : Works q b s) {release : BoundaryRef → Option OrderId → OrderId → State → State} (hrel : ∀ x f t s, Works q b s → Works q b (release x f t s)) {ev : State → State} (hev : ∀ s, Works q b s → Works q b (ev s)) :
    Works q b (Machine.mapNewCount release ev s) := by
  unfold Machine.mapNewCount
  repeat' first
    | assumption | with_reducible apply hev | with_reducible apply hrel | with_reducible apply Works.retireAll
    | with_reducible apply Works.takeMarkThresholds | with_reducible apply Works.foldl | split | intro s x h

/-! ## Orders.lean -/

theorem Works.holdCommit {q : Reach} {b s : State} (h : Works q b s) (r : HeldReason) (n : Order) :
    Works q b (Machine.holdCommit r n s) := by
  unfold Machine.holdCommit
  repeat' first
    | assumption | with_reducible apply Works.report | split | dsimp only | intro s h
    | refine Works.setOs ?_ rfl

theorem Works.clearHeld {q : Reach} {b s : State} (h : Works q b s) :
    Works q b (Machine.clearHeld s) := by
  unfold Machine.clearHeld
  repeat' first
    | assumption | split | refine Works.setOs ?_ rfl

theorem Works.singleDone {q : Reach} {b s : State} (h : Works q b s) :
    Works q b (Machine.singleDone s) := by
  unfold Machine.singleDone
  repeat' first
    | assumption | split | refine Works.setOs ?_ rfl

theorem Works.claimSplices {q : Reach} {b s : State} (h : Works q b s) (n : Order) (w : WebPos) (stands : List Nat) :
    Works q b (Machine.claimSplices n w stands s) := by
  unfold Machine.claimSplices
  repeat' first
    | assumption | with_reducible apply Works.plannedClaim | with_reducible apply Works.foldl | split | intro s x h
    | intro s h

/-- A release moves the COMMITTED order to FED and the NEXT order to FEEDING (R58). -/
theorem Works.releaseArrival {u : Bool} {b s : State} (h : Works (.loud u) b s) (b0 : BoundaryRef) (fromOrder : Option OrderId) (toOrder : OrderId) :
    Works (.loud u) b (Machine.releaseArrival b0 fromOrder toOrder s) := by
  unfold Machine.releaseArrival
  split
  · next c n hc hn =>
    split
    · refine Works.setTriggers (Works.clearHeld ?_) rfl _
      refine h.setOrders (fun hl => ?_) fun l => ?_
      · simpa [Machine.enterFeeding] using hl
      · have hc := currentOrder_spec hc
        have hn := nextOrder_spec hn
        exact OrderLaws.two rfl l hc.1 hc.2 hn.1 (by simp [hn.2, FeedState.isCurrent]) (fun _ => ⟨rfl, rfl⟩) (fun _ => ⟨rfl, rfl⟩)
          rfl (by simp) (fun o ho e no => e (congrArg Order.id (l.next_eq ho hn.1 no hn.2))) (by simp)
    · exact h
  · exact h

/-- A commit makes the FEEDING order COMMITTED and the queued head NEXT (R55). -/
theorem Works.fixEnd {u : Bool} {b s : State} (h : Works (.loud u) b s) {c n : Order} (hc : currentOrder s = some c)
    (fc : c.feed = .feeding) (hn : queuedHead s = some n) (e : WebPos) : Works (.loud u) b (Machine.fixEnd c n e s) := by
  refine h.setOrders (fun hl => ?_) fun l => ?_
  · simpa [Machine.fixEnd] using hl
  · have hc := currentOrder_spec hc
    have hn := queuedHead_spec hn
    refine OrderLaws.two rfl l hc.1 hc.2 hn.1 (by simp [hn.2, FeedState.isCurrent]) (fun _ => ⟨rfl, rfl⟩) (fun _ => ⟨rfl, rfl⟩)
      rfl (by simp) (fun o ho _ no => ?_) (fun _ => rfl)
    obtain ⟨y, hy, cy⟩ := l.beside ⟨o, ho, no⟩
    have := l.current_eq hc.1 hy hc.2 (by simp [cy, FeedState.isCurrent])
    rw [this, cy] at fc
    cases fc

theorem Works.commit {u : Bool} {b s : State} (h : Works (.loud u) b s) {c n : Order} (hc : currentOrder s = some c)
    (fc : c.feed = .feeding) (hn : queuedHead s = some n) : Works (.loud u) b (Machine.commit c n s) :=
  (((((h.fixEnd hc fc hn _).claimSplices n _ _).knifeAssign _ _ _ _).insertBoundary
    (fun x f t _ hs => Works.releaseArrival hs x f t) (fun _ h => h) _ _ _).singleDone).clearHeld

/-- The first order enters FEEDING while no order is current (R59). -/
theorem Works.enterFeeding {u : Bool} {b s : State} (h : Works (.loud u) b s) (hc : currentOrder s = none) (o : Order) (w : WebPos) :
    Works (.loud u) b (Machine.enterFeeding o w s) := by
  refine h.setOrders (fun hl => ?_) fun l => ?_
  · simpa [Machine.enterFeeding] using hl
  · exact OrderLaws.first rfl l hc fun _ => ⟨rfl, rfl⟩

theorem Works.startFirstOrder {u : Bool} {b s : State} (h : Works (.loud u) b s) (hc : currentOrder s = none) (n : Order) :
    Works (.loud u) b (Machine.startFirstOrder n s) := by
  refine Works.setTriggers ?_ rfl _
  exact (((((h.enterFeeding hc n _).claimSplices n _ _).knifeAssign _ _ _ _).insertBoundary
    (fun x f t _ hs => Works.releaseArrival hs x f t) (fun _ h => h) _ _ _).singleDone).clearHeld

theorem Works.evaluateCommit {u : Bool} {b s : State} (h : Works (.loud u) b s) :
    Works (.loud u) b (Machine.evaluateCommit s) := by
  unfold Machine.evaluateCommit
  split
  · exact h
  · split
    · exact h
    · next c hc =>
      split
      · exact h
      · next hd =>
        split
        · exact h
        · next n hn =>
          split
          · refine Works.setOs (h.modOrder c.id ?_) rfl
            exact fun _ => ⟨rfl, rfl⟩
          · split
            · exact h.holdCommit _ _
            · refine h.commit hc ?_ hn
              simp only [Bool.or_eq_true, not_or] at hd
              simpa using hd.1.1

theorem Works.evaluateFirst {u : Bool} {b s : State} (h : Works (.loud u) b s) :
    Works (.loud u) b (Machine.evaluateFirst s) := by
  unfold Machine.evaluateFirst
  split
  · exact h
  · next hd =>
    split
    · exact h
    · split
      · exact h.holdCommit _ _
      · refine h.startFirstOrder ?_ _
        simp only [Bool.or_eq_true, not_or] at hd
        simpa using hd.1.2

theorem Works.evaluateHeld {u : Bool} {b s : State} (h : Works (.loud u) b s) :
    Works (.loud u) b (Machine.evaluateHeld s) := by
  unfold Machine.evaluateHeld
  repeat' first
    | assumption | with_reducible apply Works.evaluateCommit | with_reducible apply Works.evaluateFirst

theorem Works.ordersNewCount {u : Bool} {b s : State} (h : Works (.loud u) b s) :
    Works (.loud u) b (Machine.ordersNewCount s) := by
  unfold Machine.ordersNewCount
  repeat' first
    | assumption | with_reducible apply Works.modOrder | exact fun _ => ⟨rfl, rfl⟩ | split

/-! ## Triggers.lean -/

theorem Works.setMode {u : Bool} {b s : State} (h : Works (.loud u) b s) (m : Mode) (c : HoldCause) :
    Works (.loud u) b (Machine.setMode m c s) := by
  unfold Machine.setMode
  repeat' first
    | assumption | split | refine Works.setOs ?_ rfl

theorem Works.ruleMode {u : Bool} {b s : State} (h : Works (.loud u) b s) {ev : State → State} (hev : ∀ s, Works (.loud u) b s → Works (.loud u) b (ev s)) (m : Coded Mode) :
    Works (.loud u) b (Machine.ruleMode ev m s).1 := by
  unfold Machine.ruleMode
  repeat' first
    | assumption | with_reducible apply hev | with_reducible apply Works.setMode | split

theorem Works.ruleSpliceNow {u : Bool} {b s : State} (h : Works (.loud u) b s) {ev : State → State} (hev : ∀ s, Works (.loud u) b s → Works (.loud u) b (ev s)) (k : Nat) :
    Works (.loud u) b (Machine.ruleSpliceNow ev k s).1 := by
  unfold Machine.ruleSpliceNow
  repeat' first
    | assumption | with_reducible apply hev | with_reducible apply Works.makePending | split

theorem Works.ruleMark {u : Bool} {b s : State} (h : Works (.loud u) b s) {ev : State → State} (hev : ∀ s, Works (.loud u) b s → Works (.loud u) b (ev s)) (w : WebPos) (length : Nat) :
    Works (.loud u) b (Machine.ruleMark ev w length s).1 := by
  unfold Machine.ruleMark
  repeat' first
    | assumption | with_reducible apply hev | with_reducible refine Works.insertMark ?_ (by assumption) ?_ | exact fun _ hk => MarkKind.noConfusion hk | split | dsimp only

theorem perm_moveToFront {o : Order} {l : List Order} (nd : (l.map (·.id)).Nodup) (hq : o.feed = .queued) (hm : o ∈ l) :
    (moveToFront o l).Perm l := by
  have h1 : ((l.filter fun x => x.feed != .queued) ++ l.filter fun x => !(x.feed != .queued)).Perm l := List.filter_append_perm _ l
  have h2 : l.filter (fun x => !(x.feed != .queued)) = l.filter fun x => x.feed == .queued := by
    refine List.filter_congr fun x _ => ?_
    cases x.feed <;> rfl
  rw [h2] at h1
  refine List.Perm.trans ?_ h1
  unfold moveToFront
  rw [List.append_assoc]
  refine List.Perm.append_left _ ?_
  have mq : o ∈ l.filter fun x => x.feed == .queued := List.mem_filter.mpr ⟨hm, by simp [hq]⟩
  have ndq : (l.filter fun x => x.feed == .queued).Nodup := (List.Nodup.of_map _ nd).filter _
  refine List.Perm.trans ?_ (List.perm_cons_erase mq).symm
  refine List.Perm.cons o (List.Perm.of_eq ?_)
  rw [ndq.erase_eq_filter, List.filter_filter]
  refine List.filter_congr fun x hx => ?_
  have : (x.id != o.id) = (x != o) := by
    by_cases e : x = o
    · simp [e]
    · have e' : x.id ≠ o.id := fun e' => e (List.inj_on_of_nodup_map nd hx hm e')
      rw [bne_iff_ne.mpr e', bne_iff_ne.mpr e]
  rw [this, Bool.and_comm]

theorem Works.ruleOrderFront {u : Bool} {b s : State} (h : Works (.loud u) b s) {ev : State → State} (hev : ∀ s, Works (.loud u) b s → Works (.loud u) b (ev s))
    (id : OrderId) : Works (.loud u) b (Machine.ruleOrderFront ev id s).1 := by
  unfold Machine.ruleOrderFront
  split
  · exact h
  · next o ho =>
    split
    · exact h
    · next hq =>
      have ho := orderOf_spec ho
      refine hev _ (h.setOrdersLaws fun l => ⟨fun hl => ?_, l.perm (perm_moveToFront l.ids (by simpa using hq) ho.1)⟩)
      exact (perm_moveToFront l.ids (by simpa using hq) ho.1).length_eq ▸ hl

theorem Works.ruleLatchClear {u : Bool} {b s : State} (h : Works (.loud u) b s) (n : Nat) (ls : LevelSet) :
    Works (.loud u) b (Machine.ruleLatchClear n ls s).1 := by
  unfold Machine.ruleLatchClear
  split
  · exact h
  · split
    · exact h
    · dsimp only
      split <;> exact h.modTrip (fun _ => rfl) fun t l =>
        ⟨by have := l.low; cases ls.low <;> simp_all, by have := l.high; cases ls.high <;> simp_all,
         by have := l.cutout; cases ls.cutout <;> simp_all⟩

theorem Works.executeHeld {u : Bool} {b s : State} (h : Works (.loud u) b s) {ev : State → State} (hev : ∀ s, Works (.loud u) b s → Works (.loud u) b (ev s)) (src : MgmtSource) (b0 : HeldBody) :
    Works (.loud u) b (Machine.executeHeld ev src b0 s).1 := by
  unfold Machine.executeHeld
  repeat' first
    | assumption | with_reducible apply hev | with_reducible apply Works.ruleMode
    | with_reducible apply Works.ruleSpliceNow | with_reducible apply Works.ruleMark
    | with_reducible apply Works.ruleOrderFront | with_reducible apply Works.ruleLatchClear | split

theorem Works.setTrigger {u : Bool} {b s : State} (h : Works (.loud u) b s) (i : Nat) (e : Option TriggerEntry) :
    Works (.loud u) b (Machine.setTrigger i e s) :=
  h.setTriggers (t := s.me.triggers.set i e) (by simp) s.me.feedStarts

theorem Works.removeTriggers {u : Bool} {b s : State} (h : Works (.loud u) b s) (is : List Nat) :
    Works (.loud u) b (Machine.removeTriggers is s) := by
  unfold Machine.removeTriggers
  repeat' first
    | assumption | with_reducible apply Works.setTrigger | with_reducible apply Works.foldl | split | intro s x h

theorem Works.triggerReport {u : Bool} {b s : State} (h : Works (.loud u) b s) (i : Nat) (e : TriggerEntry) (o : TriggerOutcome) (r : Option Reply) :
    Works (.loud u) b (Machine.triggerReport i e o r s) := by
  unfold Machine.triggerReport
  repeat' first
    | assumption | with_reducible apply Works.report

theorem Works.fireEntry {u : Bool} {b s : State} (h : Works (.loud u) b s) (i : Nat) (e : TriggerEntry) :
    Works (.loud u) b (Machine.fireEntry i e s) := by
  unfold Machine.fireEntry
  repeat' first
    | assumption | with_reducible apply Works.evaluateHeld | with_reducible apply Works.executeHeld
    | with_reducible apply Works.setTrigger | with_reducible apply Works.removeTriggers
    | with_reducible apply Works.triggerReport | split | dsimp only

theorem Works.matchEvent {u : Bool} {b s : State} (h : Works (.loud u) b s) (f : Nat) (p : Trigger → Bool) : Works (.loud u) b (Machine.matchEvent f p s) := by
  induction f generalizing p s with
  | zero => exact h
  | succ f ih =>
    unfold Machine.matchEvent
    refine Works.foldl (fun s i h => ?_) _ h
    split
    · exact h
    · split
      · refine Works.foldl (fun s id h => ih h _) _ ?_
        exact (h.fireEntry i _).setTriggers rfl []
      · exact h

theorem Works.handEvent {u : Bool} {b s : State} (h : Works (.loud u) b s) (p : Trigger → Bool) : Works (.loud u) b (Machine.handEvent p s) := by
  unfold Machine.handEvent
  split
  · exact h.matchEvent _ _
  · exact h

theorem Works.handFeedStarts {u : Bool} {b s : State} (h : Works (.loud u) b s) :
    Works (.loud u) b (Machine.handFeedStarts s) := by
  unfold Machine.handFeedStarts
  repeat' first
    | assumption | with_reducible apply Works.handEvent | with_reducible apply Works.foldl | split | intro s x h
    | intro s h | with_reducible refine Works.setTriggers ?_ rfl _

theorem Works.evaluate {u : Bool} {b s : State} (h : Works (.loud u) b s) :
    Works (.loud u) b (Machine.evaluate s) := by
  unfold Machine.evaluate
  repeat' first
    | assumption | with_reducible apply Works.evaluateCommit | with_reducible apply Works.evaluateFirst
    | with_reducible apply Works.handFeedStarts

theorem Works.takeRelease {u : Bool} {b s : State} (h : Works (.loud u) b s) (b0 : BoundaryRef) (fromOrder : Option OrderId) (toOrder : OrderId) :
    Works (.loud u) b (Machine.takeRelease b0 fromOrder toOrder s) := by
  unfold Machine.takeRelease
  repeat' first
    | assumption | with_reducible apply Works.releaseArrival | with_reducible apply Works.handFeedStarts
    | with_reducible apply Works.evaluate | exact fun x f t s hs => Works.releaseArrival hs x f t | split

/-! ## Splices.lean -/

theorem Works.spliceReport {q : Reach} {b s : State} (h : Works q b s) (k : Nat) (r : Stand) (o : SpliceOutcome) (f : Option SpliceFault) (offset : Option Nat) (c : Option SpliceCompletion) :
    Works q b (Machine.spliceReport k r o f offset c s) := by
  unfold Machine.spliceReport
  repeat' first
    | assumption | with_reducible apply Works.report

theorem Works.openMismatch {u : Bool} {b s : State} (h : Works (.loud u) b s) {ev : State → State} (hev : ∀ s, Works (.loud u) b s → Works (.loud u) b (ev s)) (k : Nat) :
    Works (.loud u) b (Machine.openMismatch ev k s) := by
  unfold Machine.openMismatch
  repeat' first
    | assumption | with_reducible apply hev | with_reducible apply Works.modStand | exact fun _ _ => StandStep.same rfl rfl rfl rfl
    | with_reducible refine Works.insertMark ?_ (by assumption) ?_ | exact fun _ hk => MarkKind.noConfusion hk | exact fun _ => rfl | exact fun _ hc => hc | exact fun _ _ => Nat.zero_le _
    | split | dsimp only

theorem Works.closeMismatch {q : Reach} {b s : State} (h : Works q b s) {ev : State → State} (hev : ∀ s, Works q b s → Works q b (ev s)) (k : Nat) (far : WebPos) :
    Works q b (Machine.closeMismatch ev k far s) := by
  unfold Machine.closeMismatch
  repeat' first
    | assumption | with_reducible apply hev | with_reducible apply Works.modStand | exact fun _ _ => StandStep.same rfl rfl rfl rfl
    | with_reducible apply Works.closeWindow | exact fun _ => rfl | exact fun _ hc => hc
    | exact fun _ _ => Nat.zero_le _ | split

theorem Works.plannedOutcome {u : Bool} {b s : State} (h : Works (.loud u) b s) {ev : State → State} (hev : ∀ s, Works (.loud u) b s → Works (.loud u) b (ev s)) (k : Nat) (p : Splice) (wj : WebPos) :
    Works (.loud u) b (Machine.plannedOutcome ev k p wj s).1 := by
  unfold Machine.plannedOutcome
  repeat' first
    | assumption | with_reducible apply hev | with_reducible refine Works.insertMark ?_ (by assumption) ?_ | exact fun _ hk => MarkKind.noConfusion hk | split | dsimp only

/-- One step of a completion (R124), from a state with the laws of `x` to one with those of `y`. -/
structure Completes (x y : Completing) (s t : State) : Prop where
  frame : SameFrame s t
  reports : s.ri.reports.length ≤ t.ri.reports.length
  laws : WorkLaws x s → WorkLaws y t

theorem Completes.trans {x y z : Completing} {a b c : State} (h : Completes x y a b) (k : Completes y z b c) : Completes x z a c :=
  ⟨h.frame.trans k.frame, h.reports.trans k.reports, fun l => k.laws (h.laws l)⟩

theorem Works.completes {x : Completing} {s t : State} (h : Works (.loud false) s t) : Completes x x s t :=
  ⟨h.frame, h.reports, h.laws x (by simp)⟩

/-- A step from and to no completion is outer work. -/
theorem Works.outer {b s t : State} (h : Works (.loud true) b s) (c : Completes none none s t) : Works (.loud true) b t :=
  h.trans ⟨c.frame, c.reports, fun ex e l => by rw [e rfl] at l ⊢; exact c.laws l, fun hq => by cases hq⟩

/-- A step that changes the marks and one stand's record, from the laws of one phase to the next. -/
theorem WorkLaws.phase {x y : Completing} {s : State} (l : WorkLaws x s) (j : JointLaws y s) : WorkLaws y s :=
  { l with joints := j }

/-- The joint admitted to the map while the stand's splice works (R124, step 2). -/
theorem Completes.claim {s : State} {k : Nat} {r : Stand} (hr : standOf s k = some r) (hw : r.splice.state.working = true)
    (running : s.me.running = true) (w : WebPos) :
    Completes none (some (k, some (Machine.admitMark ⟨.joint k, w, .exact 0⟩ 0 s).2.id)) s
      (Machine.admitMark ⟨.joint k, w, .exact 0⟩ 0 s).1 := by
  refine ⟨by constructor <;> rfl, le_refl _, fun l => ?_⟩
  have hperm := perm_placeMark
    ⟨freshId (s.sm.marks.map (·.id)) s.sm.marks.length s.sm.nextId, w, .joint k, 0⟩ s.sm.marks
  have hlen := l.joints.bound l.stands
  have href : r.jointRef = none := l.joints.unarmed k r hr (by simp) hw
  refine ⟨⟨l.line.directives, l.line.reports, l.line.orders, pairwise_placeMark _ l.line.mapOrder, fun m hm => ?_, l.line.carry,
    fun hn => absurd (running.symm.trans hn) (by simp)⟩, l.stands, ⟨?_, ?_, fun m hm j hj => ?_, fun j r' hr' hex hw' => ?_⟩,
    l.orders.of_feeds rfl, l.rolls, l.latches⟩
  · rcases (mem_placeMark _ m _).mp hm with rfl | hm
    · exact Nat.zero_le _
    · exact l.line.uncertainty m hm
  · refine (hperm.map (·.id)).nodup_iff.mpr (List.nodup_cons.mpr ⟨?_, l.joints.ids⟩)
    have := freshId_not_mem (used := s.sm.marks.map (·.id)) (by simp; omega) s.sm.nextId
    simpa using this
  · refine le_trans (le_of_eq (hperm.filter _).length_eq) ?_
    exact l.joints.process
  · rcases (mem_placeMark _ m _).mp hm with rfl | hm
    · cases hj
      exact ⟨r, hr, .inl rfl⟩
    · obtain ⟨r', hr', h⟩ := l.joints.joints m hm j hj
      rcases h with h | ⟨_, h⟩
      · cases h
      · refine ⟨r', hr', .inr ⟨fun i e => ?_, h⟩⟩
        have : k = j := by simpa using congrArg (Option.map Prod.fst) e
        subst this
        have hr' : standOf s k = some r' := hr'
        rw [hr] at hr'
        cases hr'
        rw [href] at h
        cases h
  · exact l.joints.unarmed j r' hr' (by simp) hw'

/-- With the joint's own id the stand's reference names the joint (R124, step 2). -/
theorem Completes.refer (k : Nat) (i : MarkId) (s : State) :
    Completes (some (k, some i)) (some (k, none)) s (Machine.modStand k (fun r => { r with jointRef := some i }) s) := by
  have hm : (Machine.modStand k (fun r => { r with jointRef := some i }) s).sm = s.sm := modStand_sm _ _ _
  refine ⟨?_, by cases k <;> exact le_refl _, fun l => ?_⟩
  · cases k with
    | zero => exact SameFrame.refl s
    | succ n =>
      constructor
      case stands => exact map_modify_eq standSettings (fun r => { r with jointRef := some i }) (fun _ => rfl) s.sc.stands n
      all_goals rfl
  · have hj : JointLaws (some (k, none)) (Machine.modStand k (fun r => { r with jointRef := some i }) s) := by
      refine ⟨hm ▸ l.joints.ids, hm ▸ l.joints.process, fun m hmem j hjm => ?_, fun j r hr hex hw => ?_⟩
      · obtain ⟨r, hr, h⟩ := l.joints.joints m (hm ▸ hmem) j hjm
        by_cases hjk : j = k
        · subst hjk
          rcases h with h | ⟨h, _⟩
          · refine ⟨{ r with jointRef := some i }, by simp [hr], .inr ⟨by simp, ?_⟩⟩
            simpa using h
          · exact absurd rfl (h i)
        · rcases h with h | ⟨_, h⟩
          · exact absurd (by simpa using congrArg (Option.map Prod.fst) h : k = j) (Ne.symm hjk)
          · exact ⟨r, by simp [hjk, hr], .inr ⟨by simp, h⟩⟩
      · have hjk : j ≠ k := fun e => hex (by simp [e])
        exact l.joints.unarmed j r (by simpa [hjk] using hr) hex hw
    cases k with
    | zero => exact l.phase hj
    | succ n =>
      exact
        { line := ⟨l.line.directives, l.line.reports, l.line.orders, l.line.mapOrder, l.line.uncertainty,
            forall_modify (p := fun r : Stand => r.carry ≤ 999) (f := fun r => { r with jointRef := some i }) (fun _ hc => hc) n
              l.line.carry, l.line.noMarks⟩
          stands := by simpa [Machine.modStand] using l.stands
          joints := hj
          orders := l.orders.of_feeds rfl
          rolls := nodup_flatMap_modify (fun r _ => List.Sublist.refl _) l.rolls
          latches := l.latches }

/-- A joint retired at once needs no reference. -/
theorem Completes.gone {k : Nat} {i : MarkId} {s : State} (h : markOf s i = none) :
    Completes (some (k, some i)) (some (k, none)) s s := by
  refine ⟨SameFrame.refl s, le_refl _, fun l => l.phase ⟨l.joints.ids, l.joints.process, fun m hm j hj => ?_, l.joints.unarmed⟩⟩
  obtain ⟨r, hr, h'⟩ := l.joints.joints m hm j hj
  rcases h' with h' | ⟨_, h'⟩
  · have : m.id = i := by
      simp only [Option.some.injEq, Prod.mk.injEq] at h'
      exact h'.2.symm
    have := List.find?_eq_none.mp h m hm
    simp_all
  · exact ⟨r, hr, .inr ⟨by simp, h'⟩⟩

/-- With no joint admitted the completion goes on without one. -/
theorem Completes.without (k : Nat) (s : State) : Completes none (some (k, none)) s s := by
  refine ⟨SameFrame.refl s, le_refl _, fun l => l.phase ⟨l.joints.ids, l.joints.process, fun m hm j hj => ?_,
    fun j r hr _ => l.joints.unarmed j r hr (by simp)⟩⟩
  obtain ⟨r, hr, h⟩ := l.joints.joints m hm j hj
  rcases h with h | ⟨_, h⟩
  · cases h
  · exact ⟨r, hr, .inr ⟨by simp, h⟩⟩

/-- The joint claim of a completion (R124, step 2). -/
theorem Completes.claimJoint {ev : State → State} (hev : ∀ b s, Works (.loud false) b s → Works (.loud false) b (ev s)) {k : Nat}
    {s : State} {r : Stand} (hr : standOf s k = some r) (hw : r.splice.state.working = true) (wj : WebPos) :
    Completes none (some (k, none)) s (Machine.claimJoint ev k wj s).1 := by
  unfold Machine.claimJoint Machine.insertMark Machine.insertCore
  by_cases running : s.me.running = true
  · have h1 := Completes.claim hr hw running wj
    have e1 : claimUncertainty s (.exact 0) = 0 := rfl
    simp only [running, Bool.not_true, Bool.false_eq_true, if_false, claimCandidate, refusedAtTier, tierOf, e1]
    generalize Machine.admitMark ⟨.joint k, wj, .exact 0⟩ 0 s = a at h1
    have h2 := ((Works.refl (q := .loud false) a.1).takeNotice a.2)
    have h3 : Works (.loud false) a.1
        (if (Machine.takeNotice a.2 a.1).2 = true then ev (Machine.takeNotice a.2 a.1).1 else (Machine.takeNotice a.2 a.1).1) := by
      split
      · exact hev _ _ h2
      · exact h2
    have h4 := h3.testRetirement (hev _) a.2.id
    generalize Machine.testRetirement ev a.2.id _ = x at h4
    have h5 := h1.trans h4.completes
    split
    · exact h5.trans (Completes.refer k _ _)
    · next hm => exact h5.trans (Completes.gone (by simpa using hm))
  · simp only [running, Bool.not_false, if_true, Bool.false_eq_true, if_false]
    exact Completes.without k s

/-- The splice becomes IDLE again: no completion is under way. -/
theorem Completes.idle (k : Nat) (s : State) : Completes (some (k, none)) none s (Machine.modSplice k (fun _ => idleSplice) s) := by
  have hm : (Machine.modSplice k (fun _ => idleSplice) s).sm = s.sm := modStand_sm _ _ _
  have h1 := (Works.refl (q := .loud false) s).restSplice (k := k) (f := fun _ => idleSplice) fun _ => rfl
  refine ⟨h1.frame, h1.reports, fun l => (h1.laws _ (by simp) l).phase ?_⟩
  have j := (h1.laws _ (by simp) l).joints
  refine ⟨j.ids, j.process, fun m hmem i hi => ?_, fun i r hr _ hw => ?_⟩
  · obtain ⟨r, hr, h⟩ := j.joints m hmem i hi
    rcases h with h | ⟨_, h⟩
    · simp at h
    · exact ⟨r, hr, .inr ⟨by simp, h⟩⟩
  · by_cases hik : i = k
    · subst hik
      simp only [Machine.modSplice, standOf_modStand, if_true, Option.map_eq_some_iff] at hr
      obtain ⟨r, _, rfl⟩ := hr
      simp [idleSplice, SpliceState.working] at hw
    · exact j.unarmed i r hr (by simpa using Ne.symm hik) hw

theorem StandStep.swap (r : Stand) : StandStep r (swapArms r) :=
  ⟨fun _ => Nat.zero_le _, rfl, fun h => .inl h, by
    simp only [rollIds, swapArms, StandbyArm.roll, Option.map_none, Option.toList_none, List.append_nil, Option.map_map]
    exact List.sublist_append_right _ _⟩

theorem Completes.completeSplice {ev : State → State} (hev : ∀ b s, Works (.loud false) b s → Works (.loud false) b (ev s)) {k : Nat}
    (f : Nat) {s : State} {r : Stand} (hr : standOf s k = some r) (hw : r.splice.state.working = true) :
    Completes none none s (Machine.completeSplice ev k f r s) := by
  unfold Machine.completeSplice
  dsimp only
  have h1 := (Works.refl (q := .loud false) s).keepSplice (k := k) (f := fun p => { p with pasteTimer := none }) fun _ => rfl
  have hr1 : standOf (Machine.modSplice k (fun p => { p with pasteTimer := none }) s) k =
      some { r with splice := { r.splice with pasteTimer := none } } := by simp [Machine.modSplice, hr]
  have h2 := Completes.claimJoint hev hr1 hw (webPos (lineCount s + f - r.effOffset))
  generalize Machine.claimJoint ev k _ _ = j at h2 ⊢
  have h3 := (((Works.refl (q := .loud false) j.1).closeMismatch (hev _) k (webPos (lineCount s + f - r.effOffset))).plannedOutcome
    (hev _) k r.splice (webPos (lineCount s + f - r.effOffset)))
  generalize Machine.plannedOutcome ev k _ _ _ = o at h3 ⊢
  have h4 := (h3.modStand (k := k) (f := swapArms) (fun _ => rfl) fun r _ => StandStep.swap r).removeSlow k
  refine ((h1.completes.trans h2).trans h4.completes).trans ((Completes.idle k _).trans (Works.completes ?_))
  exact hev _ _ (((Works.refl _).spliceReport _ _ _ _ _ _).handEvent _)

theorem Works.completeOwed {u : Bool} {b s : State} (h : Works (.loud u) b s) {ev : State → State} (hev : ∀ s, Works (.loud u) b s → Works (.loud u) b (ev s)) (k : Nat) (r : Stand) :
    Works (.loud u) b (Machine.completeOwed ev k r s) := by
  have hs : ∀ x : Stand, StandStep x { swapArms x with splice := { x.splice with swapOwed := false, pasteTimer := none } } :=
    fun x => ⟨fun _ => Nat.zero_le _, rfl, fun h => .inl h, (StandStep.swap x).rolls⟩
  refine hev _ (Works.spliceReport (h.modStand ?_ fun x _ => hs x) _ _ _ _ _ _)
  exact fun _ => rfl

theorem Works.pasteDoneRises {b s : State} (h : Works (.loud true) b s) {ev : State → State}
    (hev : ∀ u b s, Works (.loud u) b s → Works (.loud u) b (ev s)) (k : Nat) (f : Nat) :
    Works (.loud true) b (Machine.pasteDoneRises ev k f s) := by
  unfold Machine.pasteDoneRises
  split
  · exact h
  · next r hr =>
    split
    · next hp =>
      exact h.outer (Completes.completeSplice (hev false) f hr (by
        simp only [beq_iff_eq] at hp
        simp [hp, SpliceState.working]))
    · split
      · exact h.completeOwed (hev _ _) k r
      · exact h.spliceReport _ _ _ _ _ _

theorem Works.abortIfRunning {q : Reach} {b s : State} (h : Works q b s) (k : Nat) (r : Stand) :
    Works q b (Machine.abortIfRunning k r s) := by
  unfold Machine.abortIfRunning
  repeat' first
    | assumption | with_reducible apply Works.directStand | split

theorem StandStep.unload (r : Stand) : StandStep r { r with active := none, carry := 0 } :=
  ⟨fun _ => Nat.zero_le _, rfl, fun h => .inl h, by
    simp only [rollIds, Option.map_none, Option.toList_none, List.nil_append]
    exact List.sublist_append_right _ _⟩

theorem Works.webOut {u : Bool} {b s : State} (h : Works (.loud u) b s) {ev : State → State} (hev : ∀ s, Works (.loud u) b s → Works (.loud u) b (ev s)) (k : Nat) :
    Works (.loud u) b (Machine.webOut ev k s) := by
  have h2 : ∀ x, Works (.loud u) b x → ∀ r, Works (.loud u) b
      (Machine.spliceReport k r .webOut none none none (Machine.modSplice k faultSplice
        (Machine.claimStop .webOut (Machine.modStand k (fun r => { r with active := none, carry := 0 }) x)))) := fun x hx r => by
    have h3 := hx.modStand (k := k) (f := fun r => { r with active := none, carry := 0 }) (fun _ => rfl)
      fun r _ => StandStep.unload r
    exact ((h3.claimStop _).restSplice fun _ => rfl).spliceReport _ _ _ _ _ _
  unfold Machine.webOut
  split
  · exact h
  · next r hr =>
    dsimp only
    have h1 : Works (.loud u) b (if (r.splice.state != .idle && r.splice.state != .fault) = true then
        Machine.openMismatch ev k (Machine.removeSlow k (Machine.abortIfRunning k r s)) else s) := by
      split
      · exact ((h.abortIfRunning k r).removeSlow k).openMismatch hev k
      · exact h
    split
    · exact h2 _ h1 r
    · exact hev _ (h2 _ h1 r)

theorem Works.endAsFault {u : Bool} {b s : State} (h : Works (.loud u) b s) {ev : State → State} (hev : ∀ s, Works (.loud u) b s → Works (.loud u) b (ev s)) (k : Nat) (abort : Bool) (f : SpliceFault) :
    Works (.loud u) b (Machine.endAsFault ev k abort f s) := by
  unfold Machine.endAsFault
  repeat' first
    | assumption | with_reducible apply hev | with_reducible apply Works.directStand
    | with_reducible apply Works.removeSlow | refine Works.restSplice ?_ (fun _ => rfl) | refine Works.keepSplice ?_ (fun _ => rfl)
    | with_reducible apply Works.spliceReport | with_reducible apply Works.openMismatch
    | with_reducible apply Works.webOut | split

theorem Works.accelExpiry {u : Bool} {b s : State} (h : Works (.loud u) b s) {ev : State → State} (hev : ∀ s, Works (.loud u) b s → Works (.loud u) b (ev s)) (k : Nat) :
    Works (.loud u) b (Machine.accelExpiry ev k s) := by
  unfold Machine.accelExpiry
  repeat' first
    | assumption | with_reducible apply hev | with_reducible apply Works.endAsFault | split

theorem Works.pasteExpiry {u : Bool} {b s : State} (h : Works (.loud u) b s) {ev : State → State} (hev : ∀ s, Works (.loud u) b s → Works (.loud u) b (ev s)) (k : Nat) :
    Works (.loud u) b (Machine.pasteExpiry ev k s) := by
  unfold Machine.pasteExpiry
  repeat' first
    | assumption | with_reducible apply hev | refine Works.restSplice ?_ (fun _ => rfl) | refine Works.keepSplice ?_ (fun _ => rfl)
    | with_reducible apply Works.spliceReport | with_reducible apply Works.endAsFault | split

theorem Works.standFaultRises {u : Bool} {b s : State} (h : Works (.loud u) b s) {ev : State → State} (hev : ∀ s, Works (.loud u) b s → Works (.loud u) b (ev s)) (k : Nat) :
    Works (.loud u) b (Machine.standFaultRises ev k s) := by
  unfold Machine.standFaultRises
  repeat' first
    | assumption | with_reducible apply hev | with_reducible apply Works.endAsFault | split

theorem Works.standFaultFalls {u : Bool} {b s : State} (h : Works (.loud u) b s) {ev : State → State} (hev : ∀ s, Works (.loud u) b s → Works (.loud u) b (ev s)) (k : Nat) :
    Works (.loud u) b (Machine.standFaultFalls ev k s) := by
  unfold Machine.standFaultFalls
  repeat' first
    | assumption | with_reducible apply hev | refine Works.restSplice ?_ (fun _ => rfl) | refine Works.keepSplice ?_ (fun _ => rfl) | split

/-- The same roll on the standby arm, in another state of readiness. -/
theorem StandStep.standby {r : Stand} {a : StandbyArm} (h : a.roll = r.standby.roll) : StandStep r { r with standby := a } :=
  StandStep.same rfl rfl rfl (by simp only [rollIds, h])

/-- A change of the standby arm of a stand that keeps its roll. -/
theorem Works.setStandby {u : Bool} {b s : State} (h : Works (.loud u) b s) {k : Nat} {r : Stand} (hr : standOf s k = some r)
    {a : StandbyArm} (ha : a.roll = r.standby.roll) :
    Works (.loud u) b (Machine.modStand k (fun r => { r with standby := a }) s) :=
  h.modStand (fun _ => rfl) fun r' hr' => by
    rw [hr] at hr'
    cases hr'
    exact StandStep.standby ha

theorem Works.standbyReadyRises {u : Bool} {b s : State} (h : Works (.loud u) b s) {ev : State → State} (hev : ∀ s, Works (.loud u) b s → Works (.loud u) b (ev s)) (k : Nat) :
    Works (.loud u) b (Machine.standbyReadyRises ev k s) := by
  unfold Machine.standbyReadyRises
  split
  · exact h
  · next r hr =>
    split
    · next roll hs => exact (hev _ (h.setStandby hr (by simp [hs, StandbyArm.roll]))).examinePending hev k
    · exact h

theorem Works.standbyReadyFalls {u : Bool} {b s : State} (h : Works (.loud u) b s) {ev : State → State} (hev : ∀ s, Works (.loud u) b s → Works (.loud u) b (ev s)) (k : Nat) :
    Works (.loud u) b (Machine.standbyReadyFalls ev k s) := by
  unfold Machine.standbyReadyFalls
  split
  · exact h
  · next r hr =>
    split
    · next roll hs =>
      have h1 := hev _ (h.setStandby hr (a := .prepared roll) (by simp [hs, StandbyArm.roll]))
      dsimp only
      split
      · exact hev _ ((h1.restSplice fun _ => rfl).removeSlow k)
      · exact h1
    · exact h

/-- A splice that `standOf` shows working takes another working state. -/
theorem Works.moveSplice {q : Reach} {b s : State} (h : Works q b s) {k : Nat} {f : Splice → Splice} {r : Stand}
    (hr : standOf s k = some r) {x : SpliceState} (hx : (r.splice.state == x) = true) (hw : x.working = true) :
    Works q b (Machine.modSplice k f s) :=
  h.workingSplice hr (by rw [beq_iff_eq.mp hx]; exact hw) rfl

theorem Works.speedMatchedRises {u : Bool} {b s : State} (h : Works (.loud u) b s) {ev : State → State} (hev : ∀ s, Works (.loud u) b s → Works (.loud u) b (ev s)) (k : Nat) :
    Works (.loud u) b (Machine.speedMatchedRises ev k s) := by
  unfold Machine.speedMatchedRises
  split
  · exact h
  · next r hr =>
    split
    · next hx => exact (hev _ (h.moveSplice hr hx rfl)).examinePastePoint hev k
    · exact h

theorem Works.speedMatchedFalls {u : Bool} {b s : State} (h : Works (.loud u) b s) {ev : State → State} (hev : ∀ s, Works (.loud u) b s → Works (.loud u) b (ev s)) (k : Nat) :
    Works (.loud u) b (Machine.speedMatchedFalls ev k s) := by
  unfold Machine.speedMatchedFalls
  split
  · exact h
  · next r hr =>
    split
    · next hx => exact hev _ (h.moveSplice hr hx rfl)
    · exact h

theorem Works.examineRunOut {u : Bool} {b s : State} (h : Works (.loud u) b s) {ev : State → State} (hev : ∀ s, Works (.loud u) b s → Works (.loud u) b (ev s)) (k : Nat) :
    Works (.loud u) b (Machine.examineRunOut ev k s) := by
  unfold Machine.examineRunOut
  repeat' first
    | assumption | with_reducible apply hev | refine Works.restSplice ?_ (fun _ => rfl) | refine Works.keepSplice ?_ (fun _ => rfl)
    | with_reducible apply Works.makePending | split

theorem Works.examineWebOut {u : Bool} {b s : State} (h : Works (.loud u) b s) {ev : State → State} (hev : ∀ s, Works (.loud u) b s → Works (.loud u) b (ev s)) (k : Nat) :
    Works (.loud u) b (Machine.examineWebOut ev k s) := by
  unfold Machine.examineWebOut
  repeat' first
    | assumption | with_reducible apply hev | with_reducible apply Works.webOut | split

theorem Works.examinePoints {u : Bool} {b s : State} (h : Works (.loud u) b s) {ev : State → State} (hev : ∀ s, Works (.loud u) b s → Works (.loud u) b (ev s)) (k : Nat) :
    Works (.loud u) b (Machine.examinePoints ev k s) := by
  unfold Machine.examinePoints
  repeat' first
    | assumption | with_reducible apply hev | with_reducible apply Works.examineArmPoint
    | with_reducible apply Works.examinePastePoint | with_reducible apply Works.examinePending

theorem standSettings_chargeRoll (travel : Nat) (r : Stand) : standSettings (chargeRoll travel r) = standSettings r := by
  unfold chargeRoll
  split <;> rfl

theorem StandStep.charge (travel : Nat) (r : Stand) : StandStep r (chargeRoll travel r) := by
  unfold chargeRoll
  split
  · exact StandStep.same rfl rfl rfl rfl
  · next roll hr => exact ⟨fun _ => by dsimp only; omega, rfl, fun h => .inl h, by simp [rollIds, hr]⟩

theorem Works.chargeStand {u : Bool} {b s : State} (h : Works (.loud u) b s) {ev : State → State} (hev : ∀ s, Works (.loud u) b s → Works (.loud u) b (ev s))
    (travel k : Nat) : Works (.loud u) b (Machine.chargeStand ev travel k s) :=
  (((h.modStand (standSettings_chargeRoll travel) fun r _ => StandStep.charge travel r).examineWebOut hev k).examineRunOut
    hev k).examinePoints hev k

theorem Works.chargeGap {u : Bool} {b s : State} (h : Works (.loud u) b s) {ev : State → State} (hev : ∀ s, Works (.loud u) b s → Works (.loud u) b (ev s)) (travel : Nat) :
    Works (.loud u) b (Machine.chargeGap ev travel s) := by
  unfold Machine.chargeGap
  repeat' first
    | assumption | with_reducible apply hev | with_reducible apply Works.chargeStand | with_reducible apply Works.foldl
    | split | intro s x h

theorem Works.splicesNewCount {u : Bool} {b s : State} (h : Works (.loud u) b s) {ev : State → State} (hev : ∀ s, Works (.loud u) b s → Works (.loud u) b (ev s)) (travel : Nat) :
    Works (.loud u) b (Machine.splicesNewCount ev travel s) := by
  unfold Machine.splicesNewCount
  repeat' first
    | assumption | with_reducible apply hev | with_reducible apply Works.examinePoints
    | with_reducible apply Works.chargeStand | with_reducible apply Works.foldl | split | intro s x h

theorem Works.ruleSpliceAbort {u : Bool} {b s : State} (h : Works (.loud u) b s) {ev : State → State} (hev : ∀ s, Works (.loud u) b s → Works (.loud u) b (ev s)) (k : Nat) :
    Works (.loud u) b (Machine.ruleSpliceAbort ev k s).1 := by
  unfold Machine.ruleSpliceAbort
  repeat' first
    | assumption | with_reducible apply hev | with_reducible apply Works.removeSlow
    | refine Works.restSplice ?_ (fun _ => rfl) | refine Works.keepSplice ?_ (fun _ => rfl) | with_reducible apply Works.spliceReport
    | with_reducible apply Works.openMismatch | with_reducible apply Works.abortIfRunning | split

theorem mem_flatMap_modify {α β : Type} {g : α → List β} {f : α → α} {x : β} {keep : α → List β}
    (hk : ∀ r, keep r ⊆ g r) {l : List α} {i : Nat} (hg : ∀ r, l[i]? = some r → (g (f r)).Perm (x :: keep r)) {a : β}
    (ha : a ∈ (l.modify i f).flatMap g) : a = x ∨ a ∈ l.flatMap g := by
  induction l generalizing i with
  | nil => cases i <;> simp at ha
  | cons y t ih =>
    cases i with
    | zero =>
      simp only [List.modify_zero_cons, List.flatMap_cons, List.mem_append] at ha ⊢
      rcases ha with ha | ha
      · rcases List.mem_cons.mp ((hg y (by simp)).mem_iff.mp ha) with h | h
        · exact .inl h
        · exact .inr (.inl (hk y h))
      · exact .inr (.inr ha)
    | succ i =>
      simp only [List.modify_succ_cons, List.flatMap_cons, List.mem_append] at ha ⊢
      rcases ha with ha | ha
      · exact .inr (.inl ha)
      · rcases ih (fun r hr => hg r (by simpa using hr)) ha with h | h
        · exact .inl h
        · exact .inr (.inr h)

/-- One entry gives a value more, which no other entry and nothing it keeps gives. -/
theorem nodup_flatMap_add {α β : Type} {g : α → List β} {f : α → α} {x : β} {keep : α → List β}
    (hk : ∀ r, (keep r).Sublist (g r)) {l : List α} {i : Nat} (hg : ∀ r, l[i]? = some r → (g (f r)).Perm (x :: keep r))
    (hx : ∀ r, l[i]? = some r → x ∉ keep r) (ho : ∀ j r, j ≠ i → l[j]? = some r → x ∉ g r) (h : (l.flatMap g).Nodup) :
    ((l.modify i f).flatMap g).Nodup := by
  induction l generalizing i with
  | nil => cases i <;> simp
  | cons y t ih =>
    rw [List.flatMap_cons, List.nodup_append] at h
    cases i with
    | zero =>
      simp only [List.modify_zero_cons, List.flatMap_cons, List.nodup_append]
      have hp := hg y (by simp)
      refine ⟨hp.nodup_iff.mpr (List.nodup_cons.mpr ⟨hx y (by simp), h.1.sublist (hk y)⟩), h.2.1, fun a ha b hb e => ?_⟩
      rcases List.mem_cons.mp (hp.mem_iff.mp ha) with rfl | ha
      · obtain ⟨r, hr, hb⟩ := List.mem_flatMap.mp hb
        obtain ⟨j, hj⟩ := List.mem_iff_getElem?.mp hr
        exact ho (j + 1) r (by omega) (by simpa using hj) (e ▸ hb)
      · exact h.2.2 a ((hk y).subset ha) b hb e
    | succ i =>
      simp only [List.modify_succ_cons, List.flatMap_cons, List.nodup_append]
      refine ⟨h.1, ih (fun r hr => hg r (by simpa using hr)) (fun r hr => hx r (by simpa using hr))
        (fun j r hj hr => ho (j + 1) r (by omega) (by simpa using hr)) h.2.1, fun a ha b hb e => ?_⟩
      rcases mem_flatMap_modify (fun r => (hk r).subset) (fun r hr => hg r (by simpa using hr)) hb with rfl | hb
      · exact ho 0 y (by omega) (by simp) (e ▸ ha)
      · exact h.2.2 a ha b hb e

/-- A roll whose id no other arm holds, placed on an arm (R112). -/
theorem Works.placeRoll {u : Bool} {b s : State} (h : Works (.loud u) b s) {k x : Nat} {f : Stand → Stand} {keep : Stand → List Nat}
    (hf : ∀ r, standSettings (f r) = standSettings r) (hc : ∀ r, r.carry ≤ 999 → (f r).carry ≤ 999)
    (hj : ∀ r, (f r).jointRef = r.jointRef ∧ (f r).splice = r.splice) (hk : ∀ r, (keep r).Sublist (rollIds r))
    (hg : ∀ r, standOf s k = some r → (rollIds (f r)).Perm (x :: keep r)) (hx : ∀ r, standOf s k = some r → x ∉ keep r)
    (ho : ∀ j r, j ≠ k → standOf s j = some r → x ∉ rollIds r) : Works (.loud u) b (Machine.modStand k f s) := by
  refine h.trans ⟨?_, by cases k <;> exact le_refl _, fun ex _ l => ?_, fun hq => by cases hq⟩
  · cases k with
    | zero => exact SameFrame.refl s
    | succ i =>
      constructor
      case stands => exact map_modify_eq standSettings f hf s.sc.stands i
      all_goals rfl
  · have jl : JointLaws ex (Machine.modStand k f s) := by
      have hm : (Machine.modStand k f s).sm = s.sm := modStand_sm _ _ _
      refine ⟨hm ▸ l.joints.ids, hm ▸ l.joints.process, fun m hmem j hjm => ?_, fun j r hr hex hw => ?_⟩
      · obtain ⟨r, hr, h'⟩ := l.joints.joints m (hm ▸ hmem) j hjm
        by_cases hjk : j = k
        · subst hjk
          exact ⟨f r, by simp [hr], by rwa [(hj r).1]⟩
        · exact ⟨r, by simp [hjk, hr], h'⟩
      · by_cases hjk : j = k
        · subst hjk
          simp only [standOf_modStand, if_true, Option.map_eq_some_iff] at hr
          obtain ⟨r, hr, rfl⟩ := hr
          rw [(hj r).1]
          exact l.joints.unarmed j r hr hex ((hj r).2 ▸ hw)
        · exact l.joints.unarmed j r (by simpa [hjk] using hr) hex hw
    cases k with
    | zero => exact l
    | succ i =>
      exact
        { line := ⟨l.line.directives, l.line.reports, l.line.orders, l.line.mapOrder, l.line.uncertainty,
            forall_modify hc i l.line.carry, l.line.noMarks⟩
          stands := by simpa [Machine.modStand] using l.stands
          joints := jl
          orders := l.orders.of_feeds rfl
          rolls := nodup_flatMap_add hk hg hx (fun j r hj' hr => ho (j + 1) r (by omega) hr) l.rolls
          latches := l.latches }

/-- A roll id not held elsewhere is on no arm of another stand, and not on the other arm of this one (R112, case 3). -/
theorem rollIdHeld_false {s : State} {k : Nat} {arm : Coded Arm} {x : Nat} (h : rollIdHeld s k arm x = false) {j : Nat} {r : Stand}
    (hr : standOf s j = some r) :
    (x ∈ (r.active.map (·.rollId)).toList → j = k ∧ arm = .named .active) ∧
    (x ∈ (r.standby.roll.map (·.rollId)).toList → j = k ∧ arm = .named .standby) := by
  have hj := standOf_lt hr
  have := List.any_eq_false.mp h j (List.mem_map.mpr ⟨j - 1, List.mem_range.mpr (by simp [standCount]; omega), by omega⟩)
  simp only [hr, Bool.or_eq_true, Bool.and_eq_true, not_or, beq_iff_eq, Bool.not_eq_true', Bool.and_eq_false_iff, not_and,
    beq_eq_false_iff_ne] at this
  constructor
  · intro hx
    have h1 := this.1 (by simpa using hx)
    by_contra hn
    simp_all
  · intro hx
    have h1 := this.2 (by simpa using hx)
    by_contra hn
    simp_all

theorem Works.ruleRollPrepare {u : Bool} {b s : State} (h : Works (.loud u) b s) {ev : State → State} (hev : ∀ s, Works (.loud u) b s → Works (.loud u) b (ev s)) (k : Nat) (arm : Coded Arm) (v : RollFields) :
    Works (.loud u) b (Machine.ruleRollPrepare ev k arm v s).1 := by
  unfold Machine.ruleRollPrepare
  split
  · exact h
  · next r hr =>
    split
    · exact h
    · split
      · exact h
      · next hd =>
        have hd : rollIdHeld s k arm v.rollId = false := by simpa using hd
        have ho : ∀ j x, j ≠ k → standOf s j = some x → v.rollId ∉ rollIds x := fun j x hj hx hm => by
          rcases List.mem_append.mp hm with hm | hm
          · exact hj ((rollIdHeld_false hd hx).1 hm).1
          · exact hj ((rollIdHeld_false hd hx).2 hm).1
        split
        · split
          · exact h
          · refine h.placeRoll (x := v.rollId) (keep := fun r => (r.standby.roll.map (·.rollId)).toList) (fun _ => rfl)
              (fun _ _ => Nat.zero_le _) (fun _ => ⟨rfl, rfl⟩) (fun r => List.sublist_append_right _ _) (fun r _ => ?_)
              (fun x hx hm => ?_) ho
            · exact List.Perm.refl _
            · have := ((rollIdHeld_false hd hx).2 hm).2
              cases this
        · split
          · next he =>
            have h1 : Works (.loud u) b (Machine.modStand k (fun r => { r with standby := placedArm s k (preparedRoll v) }) s) := by
              refine h.placeRoll (x := v.rollId) (keep := fun r => (r.active.map (·.rollId)).toList) (fun _ => rfl)
                (fun _ hc => hc) (fun _ => ⟨rfl, rfl⟩) (fun r => List.sublist_append_left _ _) (fun x _ => ?_)
                (fun x hx hm => ?_) ho
              · have : (placedArm s k (preparedRoll v)).roll.map (·.rollId) = some v.rollId := by
                  unfold placedArm
                  split <;> rfl
                simp only [rollIds, this, Option.toList_some]
                exact List.perm_append_singleton _ _
              · have := ((rollIdHeld_false hd hx).1 hm).2
                cases this
            have h2 := hev _ h1
            dsimp only
            split
            · exact h2.examinePending hev k
            · exact h2
          · exact h
        · exact h

theorem Works.ruleRollWithdraw {u : Bool} {b s : State} (h : Works (.loud u) b s) {ev : State → State} (hev : ∀ s, Works (.loud u) b s → Works (.loud u) b (ev s)) (k : Nat) :
    Works (.loud u) b (Machine.ruleRollWithdraw ev k s).1 := by
  have hs : ∀ r : Stand, StandStep r { r with standby := .empty } := fun r =>
    ⟨fun hc => hc, rfl, fun h => .inl h, by
      simp only [rollIds, StandbyArm.roll, Option.map_none, Option.toList_none, List.append_nil]
      exact List.sublist_append_left _ _⟩
  have h1 : Works (.loud u) b (ev (Machine.modStand k (fun r => { r with standby := .empty }) s)) :=
    hev _ (h.modStand (fun _ => rfl) fun r _ => hs r)
  unfold Machine.ruleRollWithdraw
  repeat' first
    | assumption | split

theorem Works.cancelPlanned {q : Reach} {b s : State} (h : Works q b s) {ev : State → State} (hev : ∀ s, Works q b s → Works q b (ev s)) (wb : WebPos) (k : Nat) :
    Works q b (Machine.cancelPlanned ev wb k s) := by
  unfold Machine.cancelPlanned
  repeat' first
    | assumption | with_reducible apply hev | with_reducible apply Works.removeSlow
    | refine Works.restSplice ?_ (fun _ => rfl) | refine Works.keepSplice ?_ (fun _ => rfl) | with_reducible apply Works.spliceReport
    | with_reducible apply Works.closeMismatch | with_reducible apply Works.abortIfRunning | split

/-- RESTART at a stand (R135), the map being empty by then (R42). -/
theorem Works.spliceRestart {u : Bool} {b s : State} (h : Works (.loud u) b s) (hn : s.me.running = false) (k : Nat) :
    Works (.loud u) b (Machine.spliceRestart k s) := by
  have hclear : ∀ x, Works (.loud u) b x → x.me.running = false →
      ∀ f : Stand → Stand, (∀ r, f r = { r with jointRef := none, mismatch := none, splice := (f r).splice }) →
      Works (.loud u) b (Machine.modStand k f x) := fun x hx hrun f hf => by
    refine hx.trans ⟨?_, by cases k <;> exact le_refl _, fun ex _ l => ?_, fun hq => by cases hq⟩
    · cases k with
      | zero => exact SameFrame.refl x
      | succ i =>
        constructor
        case stands => exact map_modify_eq standSettings f (fun r => by rw [hf r]; rfl) x.sc.stands i
        all_goals rfl
    · have nm := l.line.noMarks hrun
      have jl : JointLaws ex (Machine.modStand k f x) := by
        have hm : (Machine.modStand k f x).sm = x.sm := modStand_sm _ _ _
        refine ⟨hm ▸ l.joints.ids, hm ▸ l.joints.process, fun m hmem => ?_, fun j r hr hex hw => ?_⟩
        · rw [hm, nm] at hmem
          cases hmem
        · by_cases hjk : j = k
          · subst hjk
            simp only [standOf_modStand, if_true, Option.map_eq_some_iff] at hr
            obtain ⟨r, _, rfl⟩ := hr
            rw [hf r]
          · exact l.joints.unarmed j r (by simpa [hjk] using hr) hex hw
      cases k with
      | zero => exact l
      | succ i =>
        exact
          { line := ⟨l.line.directives, l.line.reports, l.line.orders, l.line.mapOrder, l.line.uncertainty,
              forall_modify (fun r hc => by rw [hf r]; exact hc) i l.line.carry, l.line.noMarks⟩
            stands := by simpa [Machine.modStand] using l.stands
            joints := jl
            orders := l.orders.of_feeds rfl
            rolls := nodup_flatMap_modify (fun r _ => by rw [hf r]; exact List.Sublist.refl _) l.rolls
            latches := l.latches }
  unfold Machine.spliceRestart
  split
  · exact h
  · next r hr =>
    have h1 := h.abortIfRunning k r
    have h2 := hclear _ h1 ((Works.refl (q := .quiet) s).abortIfRunning k r |>.frame.running.trans hn)
      (fun r =>
        { r with jointRef := none, mismatch := none,
                 splice := if r.splice.state == .pasting then
                     { idleSplice with swapOwed := true, pasteTimer := r.splice.pasteTimer }
                   else { idleSplice with swapOwed := r.splice.swapOwed } }) (fun _ => rfl)
    dsimp only
    split
    · exact h2
    · exact h2
    · exact h2
    · exact h2.spliceReport _ _ _ _ _ _

theorem Works.splicesRestart {u : Bool} {b s : State} (h : Works (.loud u) b s) (hn : s.me.running = false) :
    Works (.loud u) b (Machine.splicesRestart s) := by
  unfold Machine.splicesRestart
  have : ∀ (ks : List Nat) (x : State), Works (.loud u) b x → x.me.running = false →
      Works (.loud u) b (ks.foldl (fun s k => Machine.spliceRestart k s) x) := by
    intro ks
    induction ks with
    | nil => exact fun x hx _ => hx
    | cons k t ih =>
      exact fun x hx hr => ih _ (hx.spliceRestart hr k)
        (((Works.refl (q := .loud u) x).spliceRestart hr k).frame.running.trans hr)
  exact this _ s h hn

/-! ## Trips.lean -/

theorem Latched.raise {t : ZoneTrip} (h : Latched t) (l : Level) :
    Latched { t with live := setLevel l true t.live, latched := setLevel l true t.latched } := by
  have h1 := h.low
  have h2 := h.high
  have h3 := h.cutout
  cases l <;> exact ⟨by simp_all [setLevel], by simp_all [setLevel], by simp_all [setLevel]⟩

theorem Latched.lower {t : ZoneTrip} (h : Latched t) (l : Level) (w : PerLevel (Option MarkId)) :
    Latched { t with live := setLevel l false t.live, windows := w } := by
  have h1 := h.low
  have h2 := h.high
  have h3 := h.cutout
  cases l <;> exact ⟨by simp_all [setLevel], by simp_all [setLevel], by simp_all [setLevel]⟩

theorem Works.tripReport {q : Reach} {b s : State} (h : Works q b s) (n : Nat) (e : TripEvent) :
    Works q b (Machine.tripReport n e s) := by
  unfold Machine.tripReport
  repeat' first
    | assumption | with_reducible apply Works.report | split

theorem Works.openDeviation {u : Bool} {b s : State} (h : Works (.loud u) b s) {ev : State → State} (hev : ∀ s, Works (.loud u) b s → Works (.loud u) b (ev s)) (n : Nat) (z : Zone) (l : Level) :
    Works (.loud u) b (Machine.openDeviation ev n z l s).1 := by
  unfold Machine.openDeviation
  repeat' first
    | assumption | with_reducible apply hev | with_reducible apply Works.modTrip | exact fun _ l => ⟨l.low, l.high, l.cutout⟩ | exact fun _ h => h.raise _ | exact fun _ h => h.lower _ _ | with_reducible refine Works.insertMark ?_ (by assumption) ?_ | exact fun _ hk => MarkKind.noConfusion hk
    | exact fun _ => rfl | split | dsimp only

theorem Works.raiseLevel {u : Bool} {b s : State} (h : Works (.loud u) b s) {ev : State → State} (hev : ∀ s, Works (.loud u) b s → Works (.loud u) b (ev s)) (n : Nat) (l : Level) (value : Option Int) (threshold : Option Int) :
    Works (.loud u) b (Machine.raiseLevel ev n l value threshold s) := by
  unfold Machine.raiseLevel
  repeat' first
    | assumption | with_reducible apply hev | with_reducible apply Works.report | with_reducible apply Works.stopClaim
    | with_reducible apply Works.claimStop | with_reducible apply Works.modTrip | exact fun _ l => ⟨l.low, l.high, l.cutout⟩ | exact fun _ h => h.raise _ | exact fun _ h => h.lower _ _ | with_reducible apply Works.tripReport
    | with_reducible apply Works.openDeviation | exact fun _ => rfl | split | dsimp only

theorem Works.lowerLevel {u : Bool} {b s : State} (h : Works (.loud u) b s) {ev : State → State} (hev : ∀ s, Works (.loud u) b s → Works (.loud u) b (ev s)) (n : Nat) (l : Level) :
    Works (.loud u) b (Machine.lowerLevel ev n l s).1 := by
  unfold Machine.lowerLevel
  repeat' first
    | assumption | with_reducible apply hev | with_reducible apply Works.modTrip | exact fun _ l => ⟨l.low, l.high, l.cutout⟩ | exact fun _ h => h.raise _ | exact fun _ h => h.lower _ _
    | with_reducible apply Works.closeWindow | exact fun _ => rfl | split | dsimp only

theorem Works.fallIf {u : Bool} {b s : State} (h : Works (.loud u) b s) {ev : State → State} (hev : ∀ s, Works (.loud u) b s → Works (.loud u) b (ev s)) (n : Nat) (after : PerLevel Bool) (l : Level) :
    Works (.loud u) b (Machine.fallIf ev n after l s) := by
  unfold Machine.fallIf
  repeat' first
    | assumption | with_reducible apply hev | with_reducible apply Works.lowerLevel | split

theorem Works.riseIf {u : Bool} {b s : State} (h : Works (.loud u) b s) {ev : State → State} (hev : ∀ s, Works (.loud u) b s → Works (.loud u) b (ev s)) (n : Nat) (z : Zone) (v : Int) (after : PerLevel Bool) (l : Level) :
    Works (.loud u) b (Machine.riseIf ev n z v after l s) := by
  unfold Machine.riseIf
  repeat' first
    | assumption | with_reducible apply hev | with_reducible apply Works.raiseLevel | split

theorem Works.evaluateReading {u : Bool} {b s : State} (h : Works (.loud u) b s) {ev : State → State} (hev : ∀ s, Works (.loud u) b s → Works (.loud u) b (ev s)) (n : Nat) (v : Int) :
    Works (.loud u) b (Machine.evaluateReading ev n v s) := by
  unfold Machine.evaluateReading
  repeat' first
    | assumption | with_reducible apply hev | with_reducible apply Works.modTrip | exact fun _ l => ⟨l.low, l.high, l.cutout⟩ | exact fun _ h => h.raise _ | exact fun _ h => h.lower _ _ | with_reducible apply Works.fallIf
    | with_reducible apply Works.riseIf | exact fun _ => rfl | split

theorem Works.zoneFaultTrue {u : Bool} {b s : State} (h : Works (.loud u) b s) {ev : State → State} (hev : ∀ s, Works (.loud u) b s → Works (.loud u) b (ev s)) (n : Nat) :
    Works (.loud u) b (Machine.zoneFaultTrue ev n s) := by
  unfold Machine.zoneFaultTrue
  repeat' first
    | assumption | with_reducible apply hev | with_reducible apply Works.modTrip | exact fun _ l => ⟨l.low, l.high, l.cutout⟩ | exact fun _ h => h.raise _ | exact fun _ h => h.lower _ _ | with_reducible apply Works.raiseLevel
    | exact fun _ => rfl | split | dsimp only

theorem Works.zoneFaultFalse {u : Bool} {b s : State} (h : Works (.loud u) b s) {ev : State → State} (hev : ∀ s, Works (.loud u) b s → Works (.loud u) b (ev s)) (n : Nat) :
    Works (.loud u) b (Machine.zoneFaultFalse ev n s) := by
  unfold Machine.zoneFaultFalse
  repeat' first
    | assumption | with_reducible apply hev | with_reducible apply Works.modTrip | exact fun _ l => ⟨l.low, l.high, l.cutout⟩ | exact fun _ h => h.raise _ | exact fun _ h => h.lower _ _ | with_reducible apply Works.lowerLevel
    | exact fun _ => rfl | split | dsimp only

theorem Works.zoneStationRises {u : Bool} {b s : State} (h : Works (.loud u) b s) {ev : State → State} (hev : ∀ s, Works (.loud u) b s → Works (.loud u) b (ev s)) (address : Nat) :
    Works (.loud u) b (Machine.zoneStationRises ev address s) := by
  unfold Machine.zoneStationRises
  repeat' first
    | assumption | with_reducible apply hev | with_reducible apply Works.zoneFaultTrue
    | with_reducible apply Works.foldl | split | intro s x h

theorem Works.zoneStationFalls {u : Bool} {b s : State} (h : Works (.loud u) b s) {ev : State → State} (hev : ∀ s, Works (.loud u) b s → Works (.loud u) b (ev s)) (address : Nat) :
    Works (.loud u) b (Machine.zoneStationFalls ev address s) := by
  unfold Machine.zoneStationFalls
  repeat' first
    | assumption | with_reducible apply hev | with_reducible apply Works.zoneFaultFalse
    | with_reducible apply Works.foldl | split | intro s x h

theorem Works.lineStopped {u : Bool} {b s : State} (h : Works (.loud u) b s) :
    Works (.loud u) b (Machine.lineStopped s) := by
  unfold Machine.lineStopped
  repeat' first
    | assumption | with_reducible apply Works.modTrip | exact fun _ l => ⟨l.low, l.high, l.cutout⟩ | exact fun _ h => h.raise _ | exact fun _ h => h.lower _ _ | with_reducible apply Works.foldl | exact fun _ => rfl | split
    | dsimp only | intro s x h

theorem Works.standbyReturn {u : Bool} {b s : State} (h : Works (.loud u) b s) (n : Nat) :
    Works (.loud u) b (Machine.standbyReturn n s) := by
  unfold Machine.standbyReturn
  repeat' first
    | assumption | with_reducible apply Works.modTrip | exact fun _ l => ⟨l.low, l.high, l.cutout⟩ | exact fun _ h => h.raise _ | exact fun _ h => h.lower _ _ | with_reducible apply Works.standbyExit
    | with_reducible apply Works.tripReport | exact fun _ => rfl | split

theorem Works.lineStarted {u : Bool} {b s : State} (h : Works (.loud u) b s) : Works (.loud u) b (Machine.lineStarted s) := by
  have h1 : Works (.loud u) b { s with ts := { s.ts with zones := s.ts.zones.map fun t => { t with timer := none } } } := by
    refine h.soft ?_ rfl rfl rfl rfl rfl fun l => ?_
    · constructor
      case readings => simp [Function.comp_def]
      all_goals rfl
    · simpa [Latched] using fun t ht => (⟨(l t ht).low, (l t ht).high, (l t ht).cutout⟩ : Latched { t with timer := none })
  exact Works.foldl (fun s n h => h.standbyReturn n) _ h1

theorem Works.bandFalls {u : Bool} {b s : State} (h : Works (.loud u) b s) {ev : State → State} (hev : ∀ s, Works (.loud u) b s → Works (.loud u) b (ev s)) (n : Nat) (l : Level) :
    Works (.loud u) b (Machine.bandFalls ev n l s).1 := by
  unfold Machine.bandFalls
  repeat' first
    | assumption | with_reducible apply hev | with_reducible apply Works.lowerLevel | split

theorem Works.standbyExpiry {u : Bool} {b s : State} (h : Works (.loud u) b s) {ev : State → State} (hev : ∀ s, Works (.loud u) b s → Works (.loud u) b (ev s)) (n : Nat) :
    Works (.loud u) b (Machine.standbyExpiry ev n s) := by
  unfold Machine.standbyExpiry
  repeat' first
    | assumption | with_reducible apply hev | with_reducible apply Works.modTrip | exact fun _ l => ⟨l.low, l.high, l.cutout⟩ | exact fun _ h => h.raise _ | exact fun _ h => h.lower _ _
    | with_reducible apply Works.standbyEntry | with_reducible apply Works.tripReport
    | with_reducible apply Works.bandFalls | exact fun _ => rfl | split

theorem Works.tripsStart {u : Bool} {b s : State} (h : Works (.loud u) b s) {ev : State → State} (hev : ∀ s, Works (.loud u) b s → Works (.loud u) b (ev s)) :
    Works (.loud u) b (Machine.tripsStart ev s) := by
  unfold Machine.tripsStart
  repeat' first
    | assumption | with_reducible apply hev | with_reducible apply Works.zoneFaultTrue
    | with_reducible apply Works.foldl | split | intro s x h

theorem Works.tripsRestart {u : Bool} {b s : State} (h : Works (.loud u) b s) : Works (.loud u) b (Machine.tripsRestart s) := by
  refine h.soft ?_ rfl rfl rfl rfl rfl fun _ x hx => ?_
  · constructor
    case readings => simp [Machine.tripsRestart, Function.comp_def]
    all_goals rfl
  · simp only [Machine.tripsRestart, List.mem_map] at hx
    obtain ⟨t, _, rfl⟩ := hx
    exact Latched.mk (fun h => by cases h) (fun h => by cases h) (fun h => by cases h)

/-! ## OrderRequests.lean -/

theorem Works.ruleOrderAppend {u : Bool} {b s : State} (h : Works (.loud u) b s) {ev : State → State} (hev : ∀ s, Works (.loud u) b s → Works (.loud u) b (ev s))
    (number : Nat) (v : OrderFields) : Works (.loud u) b (Machine.ruleOrderAppend ev number v s).1 := by
  unfold Machine.ruleOrderAppend
  split
  · exact h
  · next hl =>
    split
    · exact h
    · next hd =>
      split
      · exact h
      · refine hev _ (h.setOrders (fun _ => ?_) fun l =>
          l.insert (o := appendedOrder number v) rfl (fun x hx e => hd ?_) (List.perm_append_singleton _ _))
        · simp only [List.length_append, List.length_singleton]
          omega
        · exact List.find?_isSome.mpr ⟨x, hx, by simpa [appendedOrder] using e⟩

theorem Works.withdrawThreshold {q : Reach} {b s : State} (h : Works q b s) (id : MarkId) (t : Threshold) :
    Works q b (Machine.withdrawThreshold id t s) := by
  unfold Machine.withdrawThreshold
  repeat' first
    | assumption | with_reducible apply Works.withdrawZone | with_reducible apply Works.knifeApproach
    | with_reducible apply Works.knifeArrival | with_reducible apply Works.withdrawKnife
    | with_reducible apply Works.withdrawPlan | split | intro s h

theorem Works.withdrawBoundary {q : Reach} {b s : State} (h : Works q b s) (c : OrderId) (n : OrderId) (w : WebPos) :
    Works q b (Machine.withdrawBoundary c n w s) := by
  unfold Machine.withdrawBoundary
  repeat' first
    | assumption | with_reducible apply Works.removeBoundary | with_reducible apply Works.withdrawThreshold
    | with_reducible apply Works.foldl | split | dsimp only | intro s x h | intro s h

theorem exists_of_feeds {s t : State} (h : feedsOf t = feedsOf s) {o : Order} (ho : o ∈ s.os.orders) :
    ∃ x ∈ t.os.orders, x.id = o.id ∧ x.feed = o.feed := by
  have : (o.id, o.feed) ∈ feedsOf t := h ▸ List.mem_map_of_mem (f := fun o : Order => (o.id, o.feed)) ho
  obtain ⟨x, hx, e⟩ := List.mem_map.mp this
  exact ⟨x, hx, congrArg Prod.fst e, congrArg Prod.snd e⟩

/-- The claims and notices of a withdrawal before the feed states change (R62, steps 1 to 4). -/
theorem withdraw_quiet (c n : OrderId) (e : WebPos) (s : State) :
    Works .quiet s (Machine.knifeRelease n (((List.range (standCount (Machine.withdrawBoundary c n e s))).map (· + 1)).foldl
      (fun s k => Machine.cancelPlanned (fun s => s) e k s) (Machine.withdrawBoundary c n e s))) :=
  (Works.foldl (fun _ k h => h.cancelPlanned (fun _ h => h) e k) _ ((Works.refl s).withdrawBoundary c n e)).knifeRelease n

/-- A withdrawal returns the COMMITTED order to FEEDING and the NEXT order to QUEUED (R62). -/
theorem Works.withdrawCommit {u : Bool} {b s : State} (h : Works (.loud u) b s) {c n : Order} (hc : currentOrder s = some c)
    (hn : n ∈ s.os.orders) (nn : n.feed = .next) : Works (.loud u) b (Machine.withdrawCommit c n s) := by
  have hq := withdraw_quiet c.id n.id (c.endW.getD 0) s
  unfold Machine.withdrawCommit
  dsimp only
  generalize Machine.knifeRelease n.id _ = x at hq
  refine Works.clearHeld ?_
  have hc := currentOrder_spec hc
  obtain ⟨c', hc', ec, fc⟩ := exists_of_feeds (hq.feeds rfl) hc.1
  obtain ⟨n', hn', en, fn⟩ := exists_of_feeds (hq.feeds rfl) hn
  rw [← ec, ← en]
  refine (h.trans hq.loud).setOrders (fun hl => ?_) fun l => ?_
  · simpa using hl
  · exact OrderLaws.two rfl l hc' (by rw [fc]; exact hc.2) hn' (by simp [fn, nn, FeedState.isCurrent]) (fun _ => ⟨rfl, rfl⟩)
      (fun _ => ⟨rfl, rfl⟩) rfl (by simp) (fun o ho e no => e (congrArg Order.id (l.next_eq ho hn' no (fn.trans nn)))) (by simp)

theorem Works.withdrawNext {u : Bool} {b s : State} (h : Works (.loud u) b s) {n : Order} (hn : n ∈ s.os.orders)
    (nn : n.feed = .next) : Works (.loud u) b (Machine.withdrawNext n s) := by
  unfold Machine.withdrawNext
  split
  · next hc => exact h.withdrawCommit hc hn nn
  · exact h

/-- After a withdrawal its NEXT order is not COMMITTED. -/
theorem withdrawNext_feed {n : Order} {s : State} (hn : n ∈ s.os.orders) (nn : n.feed = .next)
    (l : OrderLaws (withdrawNext n s)) : ∀ o ∈ (withdrawNext n s).os.orders, o.id = n.id → o.feed ≠ .committed := by
  unfold withdrawNext at l ⊢
  split
  · intro o ho e
    simp only [withdrawCommit, clearHeld] at ho
    rw [modOrder_os] at ho
    obtain ⟨x, _, rfl⟩ := List.mem_map.mp ho
    by_cases hx : x.id = n.id
    · simp [hx]
    · exact absurd e (by simp [hx])
  · next hc =>
    simp only [hc] at l
    intro o ho e
    rw [l.eq_of_id ho hn e, nn]
    simp

theorem amendedOrder_feed (c : Nat) (mask : Byte) (v : OrderFields) (o : Order) :
    (amendedOrder c mask v o).id = o.id ∧ (amendedOrder c mask v o).feed = o.feed := by
  unfold amendedOrder
  dsimp only
  split <;> exact ⟨rfl, rfl⟩

theorem cancelledFeeding_feed (c : Nat) (o : Order) :
    (cancelledFeeding c o).id = o.id ∧ (cancelledFeeding c o).feed = o.feed := by
  unfold cancelledFeeding
  dsimp only
  split <;> exact ⟨rfl, rfl⟩

theorem Works.ruleOrderAmend {u : Bool} {b s : State} (h : Works (.loud u) b s) {ev : State → State} (hev : ∀ s, Works (.loud u) b s → Works (.loud u) b (ev s)) (force : Bool) (mask : Byte) (id : OrderId) (v : OrderFields) :
    Works (.loud u) b (Machine.ruleOrderAmend ev force mask id v s).1 := by
  unfold Machine.ruleOrderAmend
  split
  · exact h
  · next o ho =>
    split
    · exact h
    · split
      · exact h
      · split
        · exact h
        · split
          · exact h
          · have h1 : Works (.loud u) b (if amendWithdraws o mask = true then Machine.withdrawNext o s else s) := by
              split
              · next hw =>
                refine h.withdrawNext (orderOf_spec ho).1 ?_
                simp only [amendWithdraws, Bool.and_eq_true, beq_iff_eq] at hw
                exact hw.1
              · exact h
            exact hev _ (h1.modOrder id (amendedOrder_feed _ mask v))

/-- An order that is not COMMITTED leaves the queue. -/
theorem Works.removeOrder {u : Bool} {b s : State} (h : Works (.loud u) b s) {id : OrderId}
    (hc : OrderLaws s → ∀ o ∈ s.os.orders, o.id = id → o.feed ≠ .committed) : Works (.loud u) b (Machine.removeOrder id s) :=
  h.setOrders (fun hl => le_trans (List.length_filter_le _ _) hl) fun l =>
    l.remove (p := fun o => o.id != id) (fun o ho co => bne_iff_ne.mpr fun e => hc l o ho e co) rfl

theorem Works.orphanEntries {u : Bool} {b s : State} (h : Works (.loud u) b s) (id : OrderId) : Works (.loud u) b (Machine.orphanEntries id s) := by
  unfold Machine.orphanEntries
  refine Works.foldl (fun s i h => ?_) _ h
  split
  · split
    · exact (h.setTrigger i none).triggerReport _ _ _ _
    · exact h
  · exact h

@[simp] theorem report_os (x : ReportBody) (s : State) : (report x s).os = s.os := by
  unfold report
  dsimp only
  split <;> rfl

theorem OrderLaws.of_report {x : ReportBody} {s : State} (l : OrderLaws (report x s)) : OrderLaws s :=
  l.of_feeds (by simp [feedsOf])

theorem Works.cancelQueued {u : Bool} {b s : State} (h : Works (.loud u) b s) {id : OrderId}
    (hc : OrderLaws s → ∀ o ∈ s.os.orders, o.id = id → o.feed ≠ .committed) : Works (.loud u) b (Machine.cancelQueued id s) := by
  unfold Machine.cancelQueued
  split
  · exact h
  · refine ((h.report _).removeOrder fun l => ?_).orphanEntries id
    simpa using hc l.of_report

theorem Works.ruleOrderCancel {u : Bool} {b s : State} (h : Works (.loud u) b s) {ev : State → State} (hev : ∀ s, Works (.loud u) b s → Works (.loud u) b (ev s)) (force : Bool) (id : OrderId) :
    Works (.loud u) b (Machine.ruleOrderCancel ev force id s).1 := by
  unfold Machine.ruleOrderCancel
  split
  · exact h
  · next o ho =>
    have ho := orderOf_spec ho
    split
    · next hf =>
      refine hev _ (h.cancelQueued fun l x hx e => ?_)
      rw [l.eq_of_id hx ho.1 (e.trans ho.2.symm), hf]
      simp
    · next hf =>
      split
      · refine hev _ ((h.withdrawNext ho.1 hf).cancelQueued fun l => ?_)
        rw [← ho.2]
        exact withdrawNext_feed ho.1 hf l
      · exact h
    · split
      · exact hev _ (h.modOrder id (cancelledFeeding_feed _))
      · exact h
    · exact h
    · exact h

theorem Works.countClaim {u : Bool} {b s : State} (h : Works (.loud u) b s) (id : OrderId) (c : Option RejectCause) :
    Works (.loud u) b (Machine.countClaim id c s) :=
  h.modOrder id fun o => by
    unfold countedOrder
    dsimp only
    split <;> exact ⟨rfl, rfl⟩

theorem perm_placeAtHead (o : Order) (l : List Order) : (placeAtHead o l).Perm (o :: l) := by
  have h1 : ((l.filter fun x => x.feed != .queued) ++ l.filter fun x => !(x.feed != .queued)).Perm l := List.filter_append_perm _ l
  have h2 : l.filter (fun x => !(x.feed != .queued)) = l.filter fun x => x.feed == .queued := by
    refine List.filter_congr fun x _ => ?_
    cases x.feed <;> rfl
  rw [h2] at h1
  unfold placeAtHead
  rw [List.append_assoc]
  exact List.perm_middle.trans (List.Perm.cons o h1)

/-- A make-up order enters only a queue with room for it (R67, R68). -/
theorem Works.placeMakeUp {u : Bool} {b s : State} (h : Works (.loud u) b s) (o : Order) :
    Works (.loud u) b (Machine.placeMakeUp o (outcomeOf s o) s) := by
  unfold Machine.placeMakeUp
  split
  · next i hi =>
    have hr : noRoomFor s o = false := by
      unfold outcomeOf at hi
      split at hi
      · cases hi
      · split at hi
        · cases hi
        · split at hi
          · cases hi
          · split at hi
            · cases hi
            · next hn => simpa using hn
    simp only [noRoomFor, Bool.or_eq_false_iff, decide_eq_false_iff_not, not_le] at hr
    refine h.setOrders (fun _ => ?_) fun l => l.insert (o := makeUpOf o) rfl (fun x hx e => ?_) (perm_placeAtHead _ _)
    · rw [(perm_placeAtHead _ _).length_eq]
      simp only [List.length_cons]
      omega
    · have : (orderOf s ⟨o.id.number, o.id.makeUp + 1⟩).isSome = true :=
        List.find?_isSome.mpr ⟨x, hx, by simpa [makeUpOf] using e⟩
      rw [hr.2] at this
      cases this
  · exact h

theorem mem_placeMakeUp {o x : Order} {c : OrderOutcome} {s : State} (hx : x ∈ s.os.orders) :
    x ∈ (Machine.placeMakeUp o c s).os.orders := by
  unfold Machine.placeMakeUp
  split
  · exact (perm_placeAtHead _ _).mem_iff.mpr (List.mem_cons_of_mem _ hx)
  · exact hx

theorem Works.closeOrder {u : Bool} {b s : State} (h : Works (.loud u) b s) (id : OrderId) : Works (.loud u) b (Machine.closeOrder id s) := by
  unfold Machine.closeOrder
  split
  · exact h
  · next o ho =>
    have ho := orderOf_spec ho
    split
    · next hf =>
      dsimp only
      have h1 : Works (.loud u) b _ := ((h.placeMakeUp { o with cutState := .closed }).report
        (.order { o with cutState := .closed } (outcomeOf s { o with cutState := .closed }))).removeOrder (id := id)
          fun l x hx e => by
            simp only [report_os] at hx
            rw [l.of_report.eq_of_id hx (mem_placeMakeUp ho.1) (e.trans ho.2.symm), beq_iff_eq.mp hf]
            simp
      have h2 := h1.handEvent (fun t => t == .orderClosed id)
      split
      · exact h2.evaluate
      · exact h2
    · exact h

theorem Works.ordersRestart {u : Bool} {b s : State} (h : Works (.loud u) b s) : Works (.loud u) b (Machine.ordersRestart s) := by
  unfold Machine.ordersRestart
  refine Works.setOrders (Works.foldl (fun s o h => h.report _) _ h) (fun hl => ?_) fun l =>
    l.allQueued (f := keptOrder) (fun _ => ⟨rfl, rfl⟩) rfl
  simp only [List.length_map]
  exact le_trans (List.length_filter_le _ _) hl

/-! ## Cuts.lean -/

theorem Works.endOrder {u : Bool} {b s : State} (h : Works (.loud u) b s) (id : OrderId) :
    Works (.loud u) b (Machine.endOrder id s) := by
  unfold Machine.endOrder
  repeat' first
    | assumption | with_reducible apply Works.stackOrderEnd | with_reducible apply Works.closeOrder

theorem Works.closeEarlier {u : Bool} {b s : State} (h : Works (.loud u) b s) (w : WebPos) :
    Works (.loud u) b (Machine.closeEarlier w s) := by
  unfold Machine.closeEarlier
  repeat' first
    | assumption | with_reducible apply Works.endOrder | with_reducible apply Works.foldl | split | intro s x h

theorem Works.closeAtEnd {u : Bool} {b s : State} (h : Works (.loud u) b s) (id : OrderId) (e : WebPos) :
    Works (.loud u) b (Machine.closeAtEnd id e s) := by
  unfold Machine.closeAtEnd
  repeat' first
    | assumption | with_reducible apply Works.endOrder | split

theorem Works.examineStacker {u : Bool} {b s : State} (h : Works (.loud u) b s) (o : Order) :
    Works (.loud u) b (Machine.examineStacker o s).1 := by
  unfold Machine.examineStacker
  repeat' first
    | assumption | with_reducible apply Works.markDeck | split

theorem Works.classify {u : Bool} {b s : State} (h : Works (.loud u) b s) (o : Option Order) (length : Nat) (qs : WebPos) (qe : WebPos) :
    Works (.loud u) b (Machine.classify o length qs qe s).1 := by
  unfold Machine.classify
  repeat' first
    | assumption | with_reducible apply Works.examineStacker | split

theorem Works.applyGate {u : Bool} {b s : State} (h : Works (.loud u) b s) (c : Option RejectCause) (start : WebPos) :
    Works (.loud u) b (Machine.applyGate c start s).1 := by
  unfold Machine.applyGate
  repeat' first
    | assumption | with_reducible apply Works.gateAt | split

theorem Works.stackOrderChange {u : Bool} {b s : State} (h : Works (.loud u) b s) (o : Option Order) :
    Works (.loud u) b (Machine.stackOrderChange o s) := by
  unfold Machine.stackOrderChange
  repeat' first
    | assumption | with_reducible apply Works.closeCurrent | split

theorem Works.countSheetOf {u : Bool} {b s : State} (h : Works (.loud u) b s) (o : Option Order) (c : Option RejectCause) (e : WebPos) :
    Works (.loud u) b (Machine.countSheetOf o c e s) := by
  unfold Machine.countSheetOf
  repeat' first
    | assumption | with_reducible apply Works.modCounters | with_reducible apply Works.countSheet
    | with_reducible apply Works.countClaim | split

theorem Works.takeSheet {u : Bool} {b s : State} (h : Works (.loud u) b s) (a : WebPos) (e : WebPos) (qs : WebPos) (qe : WebPos) (trim : Bool) :
    Works (.loud u) b (Machine.takeSheet a e qs qe trim s) := by
  unfold Machine.takeSheet
  repeat' first
    | assumption | with_reducible apply Works.prunePlan | with_reducible apply Works.closeEarlier
    | with_reducible apply Works.closeAtEnd | with_reducible apply Works.classify | with_reducible apply Works.applyGate
    | with_reducible apply Works.stackOrderChange | with_reducible apply Works.countSheetOf | split | dsimp only

theorem Works.setPrevWc {u : Bool} {b s : State} (h : Works (.loud u) b s) (w : WebPos) :
    Works (.loud u) b (Machine.setPrevWc w s) := by
  unfold Machine.setPrevWc
  repeat' first
    | assumption | split | with_reducible refine Works.setCs ?_ rfl

theorem Works.takeExpectedCut {u : Bool} {b s : State} (h : Works (.loud u) b s) (offset : Nat) (trim : Bool) :
    Works (.loud u) b (Machine.takeExpectedCut offset trim s) := by
  unfold Machine.takeExpectedCut
  repeat' first
    | assumption | with_reducible apply Works.prunePlan | with_reducible apply Works.takeSheet
    | with_reducible apply Works.setPrevWc | split | dsimp only

theorem Works.takeGapCut {u : Bool} {b s : State} (h : Works (.loud u) b s) (k : Nat) (offset : Nat) (trim : Bool) :
    Works (.loud u) b (Machine.takeGapCut k offset trim s) := by
  unfold Machine.takeGapCut
  repeat' first
    | assumption | with_reducible apply Works.modCounters | with_reducible apply Works.takeSheet
    | with_reducible apply Works.setPrevWc | with_reducible apply Works.takeExpectedCut
    | with_reducible apply Works.foldl | split | dsimp only | intro s x h

/-! ## Tally.lean -/

theorem Works.stoppedChange {u : Bool} {b s : State} (h : Works (.loud u) b s) (was : Bool) (now : Bool) :
    Works (.loud u) b (Machine.stoppedChange was now s) := by
  unfold Machine.stoppedChange
  repeat' first
    | assumption | with_reducible apply Works.lineStopped | with_reducible apply Works.lineStarted | split

theorem Works.handNewCount {u : Bool} {b s : State} (h : Works (.loud u) b s) (delta : Nat) : Works (.loud u) b (Machine.handNewCount delta s) := by
  have hev : ∀ s, Works (.loud u) b s → Works (.loud u) b (Machine.evaluate s) := fun s h => h.evaluate
  unfold Machine.handNewCount
  refine Works.handEvent ?_ _
  refine hev _ (Works.ordersNewCount (Works.splicesNewCount (Works.zonesNewCount ?_) hev _))
  exact h.mapNewCount (fun x f t s h => h.takeRelease x f t) hev

/-! ## StatusWords.lean -/

theorem Works.handBit {u : Bool} {b s : State} (h : Works (.loud u) b s) (old : Word16) (new : Word16) (i : Nat) {up : State → State} (hup : ∀ s, Works (.loud u) b s → Works (.loud u) b (up s)) {down : State → State} (hdown : ∀ s, Works (.loud u) b s → Works (.loud u) b (down s)) :
    Works (.loud u) b (Machine.handBit old new i up down s) := by
  unfold Machine.handBit
  repeat' first
    | assumption | with_reducible apply hup | with_reducible apply hdown | split

theorem Works.dispatchStand {b s : State} (h : Works (.loud true) b s) (k : Nat) (old : Word16) (new : Word16) (offset : Nat) :
    Works (.loud true) b (Machine.dispatchStand k old new offset s) := by
  unfold Machine.dispatchStand
  repeat' first
    | assumption | with_reducible apply Works.evaluate | with_reducible apply Works.pasteDoneRises
    | with_reducible apply Works.standFaultRises | with_reducible apply Works.standFaultFalls
    | with_reducible apply Works.standbyReadyRises | with_reducible apply Works.standbyReadyFalls
    | with_reducible apply Works.speedMatchedRises | with_reducible apply Works.speedMatchedFalls
    | with_reducible apply Works.handBit | split | dsimp only | intro s h

theorem Works.dispatchKnife {u : Bool} {b s : State} (h : Works (.loud u) b s) (k : KnifeId) (old : Word16) (new : Word16) :
    Works (.loud u) b (Machine.dispatchKnife k old new s) := by
  unfold Machine.dispatchKnife
  repeat' first
    | assumption | with_reducible apply Works.knifeReadyRises | with_reducible apply Works.knifeReadyFalls
    | with_reducible apply Works.knifeEngagedRises | with_reducible apply Works.knifeLiftedRises
    | with_reducible apply Works.knifeFaultRises | with_reducible apply Works.knifeFaultFalls
    | with_reducible apply Works.evaluate | with_reducible apply Works.handBit | split | dsimp only | intro s h

theorem Works.dispatchStacker {u : Bool} {b s : State} (h : Works (.loud u) b s) (old : Word16) (new : Word16) :
    Works (.loud u) b (Machine.dispatchStacker old new s) := by
  unfold Machine.dispatchStacker
  repeat' first
    | assumption | with_reducible apply Works.transferDoneChange | with_reducible apply Works.stackerFaultChange
    | with_reducible apply Works.handBit | split | dsimp only | intro s h

theorem Works.dispatchWord {b s : State} (h : Works (.loud true) b s) (role : Role) (address : Nat) (old : Word16) (new : Word16) (offset : Nat) :
    Works (.loud true) b (Machine.dispatchWord role address old new offset s) := by
  unfold Machine.dispatchWord
  repeat' first
    | assumption | with_reducible apply Works.cutoffFaultRises | with_reducible apply Works.evaluate
    | with_reducible apply Works.zoneStationRises | with_reducible apply Works.zoneStationFalls
    | with_reducible apply Works.handBit | with_reducible apply Works.dispatchStand
    | with_reducible apply Works.dispatchKnife | with_reducible apply Works.dispatchStacker | split | intro s h

end Sys2Proof.Machine
end

