-- ==== Sys2Proof/WellFormed.lean ====
section
/-! DEFINITION. Which commands can stand on the ring or at the part's pins and timers: the widths and value sets that the fields
of a frame have (9.1, 9.7, Tables 9-2 to 9-5, 10-1 and 10-5). The ranges that a request's own rule checks are not here: a value
outside them is answered REFUSED. -/

namespace Sys2Proof

/-- An address on the ring, 0–63 (9.1). -/
def addressFits (a : Byte) : Bool := decide (a.toNat ≤ 63)

/-- The target and origin of an observed frame are addresses (Table 9-2). -/
def FrameHeader.fits (h : FrameHeader) : Bool := addressFits h.target && addressFits h.origin

/-- The target and origin of a REQUEST frame are addresses (Table 9-2). -/
def ReqHeader.fits (h : ReqHeader) : Bool := addressFits h.target && addressFits h.origin

/-- An order's number is 32-bit and its make-up index 0–15 (R43). -/
def OrderId.fits (o : OrderId) : Bool := decide (o.number < 2 ^ 32) && decide (o.makeUp ≤ 15)

/-- A web position is a signed 48-bit number (R2). -/
def webPosFits (w : WebPos) : Bool := decide (-(2 ^ 47) ≤ w) && decide (w < 2 ^ 47)

/-- A signed 16-bit value (00_scope.md, Units). -/
def signed16Fits (n : Int) : Bool := decide (-32768 ≤ n) && decide (n ≤ 32767)

/-- A loaded grade record has five paper entries and sixteen setpoints, each signed 16-bit or KEEP (R136). -/
def Grade.fits (g : Grade) : Bool :=
  g.papers.length == 5 && g.setpoints.length == 16 && g.setpoints.all fun v => (v.map signed16Fits).getD true

/-- A grade record, loaded or empty. -/
def gradeFits (g : Option Grade) : Bool := (g.map Grade.fits).getD true

/-- A role is one of Table 9-1. -/
def roleFits : Coded Role → Bool
  | .named (.stand k) => decide (1 ≤ k) && decide (k ≤ 5)
  | _ => true

/-- A station table entry's role is one of Table 9-1, or a code outside it (R174). -/
def StationForm.fits : StationForm → Bool
  | .empty => true
  | .fields _ r _ => roleFits r

/-- The values of a trigger (Table 10-5). -/
def TriggerForm.fits : TriggerForm → Bool
  | .lineAt c => decide (c ≤ lineCountMax)
  | .feedStart o => o.fits
  | .orderClosed o => o.fits
  | _ => true

/-- A held request's values; a code of the five in Table 10-5 has its own form. -/
def HeldBody.fits : HeldBody → Bool
  | .mark w _ => webPosFits w
  | .orderFront o => o.fits
  | .other c => !([7, 11, 14, 16, 18].contains c)
  | _ => true

/-- The values of a request's body have the widths their fields have (Table 10-1). -/
def Body.fits : Body → Bool
  | .writeGrade _ v => gradeFits v
  | .loadGrade _ vs => vs.all gradeFits
  | .writeStation _ v => v.fits
  | .loadStation _ vs => vs.all StationForm.fits
  | .orderAppend n _ => decide (n < 2 ^ 32)
  | .orderAmend o _ => o.fits
  | .orderCancel o => o.fits
  | .orderFront o => o.fits
  | .mark w _ => webPosFits w
  | .triggerSet t _ _ b => t.fits && b.fits
  | _ => true

/-- A request's form: its body's values fit, or its code is one of Table 10-1. -/
def RequestForm.fits : RequestForm → Bool
  | .body b => b.fits
  | .wrongSize c => decide (1 ≤ c) && decide (c ≤ 20)

/-- A frame at the receive port, by octets or by a request's fields. -/
def RxFrame.fits : RxFrame → Bool
  | .octets _ => true
  | .request h r => h.fits && r.fits

/-- A command's body as the body of its request. -/
def sizedFits {α : Type} (p : α → Bool) : Sized α → Bool
  | .fields a => p a
  | .wrongSize => true

/-- A payload is one of UNKNOWN_REQUEST: at most 240 octets, with an incomplete header or a code outside Table 10-1. -/
def unknownPayload (p : List Byte) : Bool :=
  decide (p.length ≤ 240) && (decide (p.length < 4) || !(decide (1 ≤ (p.getD 0 0).toNat) && decide ((p.getD 0 0).toNat ≤ 20)))

/-- A stand's number (R110). -/
def standFits (k : Nat) : Bool := decide (1 ≤ k) && decide (k ≤ Config.standCapacity)

/-- A zone's number (R138). -/
def zoneFits (n : Nat) : Bool := decide (n < Config.zoneCapacity)

/-- A command that can reach the part. -/
def Instr.wellFormed : Instr → Bool
  | .resetInput _ => true
  | .receiveFrame f => f.fits
  | .tally h _ _ => h.fits
  | .reading h _ _ => h.fits
  | .stateFrame h _ _ => h.fits
  | .cut h _ _ => h.fits
  | .transmit => true
  | .accelTimeout k => standFits k
  | .pasteTimeout k => standFits k
  | .transferTimeout => true
  | .standbyTimeout n => zoneFits n
  | .identify h _ => h.fits
  | .read h _ => h.fits
  | .readFault h _ => h.fits
  | .write h _ => h.fits
  | .writeLineGeometry h _ => h.fits
  | .writeRejectSpan h _ => h.fits
  | .writeStandConfiguration h _ => h.fits
  | .writeStand h _ => h.fits
  | .writeGrade h b => h.fits && sizedFits (fun x => gradeFits x.2) b
  | .writeZone h _ => h.fits
  | .writeProfile h _ => h.fits
  | .writeStation h b => h.fits && sizedFits (fun x => x.2.fits) b
  | .loadRejectSpan h _ => h.fits
  | .loadGrade h b => h.fits && sizedFits (fun x => x.2.all gradeFits) b
  | .loadZone h _ => h.fits
  | .loadProfile h _ => h.fits
  | .loadStation h b => h.fits && sizedFits (fun x => x.2.all StationForm.fits) b
  | .start h _ => h.fits
  | .restart h _ => h.fits
  | .modeHold h _ => h.fits
  | .modeSingle h _ => h.fits
  | .modeAuto h _ => h.fits
  | .orderAppend h b => h.fits && sizedFits (fun x => decide (x.1 < 2 ^ 32)) b
  | .orderAmend h b => h.fits && sizedFits (fun x => x.1.fits) b
  | .orderCancel h b => h.fits && sizedFits OrderId.fits b
  | .orderFront h b => h.fits && sizedFits OrderId.fits b
  | .rollPrepare h _ => h.fits
  | .rollWithdraw h _ => h.fits
  | .spliceNow h _ => h.fits
  | .spliceAbort h _ => h.fits
  | .latchClear h _ => h.fits
  | .clearStop h _ => h.fits
  | .mark h b => h.fits && sizedFits (fun x => webPosFits x.1) b
  | .triggerSet h b => h.fits && sizedFits (fun x => x.1.fits && x.2.2.2.fits) b
  | .triggerClear h _ => h.fits
  | .unknownRequest h p => h.fits && unknownPayload p
  | .load h _ => h.fits

/-- The header of the request a command brings, for the commands that are requests given by their fields (Table 9-5). -/
def Instr.requestHeader : Instr → Option ReqHeader
  | .identify h _ => some h
  | .read h _ => some h
  | .readFault h _ => some h
  | .write h _ => some h
  | .writeLineGeometry h _ => some h
  | .writeRejectSpan h _ => some h
  | .writeStandConfiguration h _ => some h
  | .writeStand h _ => some h
  | .writeGrade h _ => some h
  | .writeZone h _ => some h
  | .writeProfile h _ => some h
  | .writeStation h _ => some h
  | .loadRejectSpan h _ => some h
  | .loadGrade h _ => some h
  | .loadZone h _ => some h
  | .loadProfile h _ => some h
  | .loadStation h _ => some h
  | .start h _ => some h
  | .restart h _ => some h
  | .modeHold h _ => some h
  | .modeSingle h _ => some h
  | .modeAuto h _ => some h
  | .orderAppend h _ => some h
  | .orderAmend h _ => some h
  | .orderCancel h _ => some h
  | .orderFront h _ => some h
  | .rollPrepare h _ => some h
  | .rollWithdraw h _ => some h
  | .spliceNow h _ => some h
  | .spliceAbort h _ => some h
  | .latchClear h _ => some h
  | .clearStop h _ => some h
  | .mark h _ => some h
  | .triggerSet h _ => some h
  | .triggerClear h _ => some h
  | .load h _ => some h
  | .resetInput _ => none
  | .receiveFrame _ => none
  | .tally _ _ _ => none
  | .reading _ _ _ => none
  | .stateFrame _ _ _ => none
  | .cut _ _ _ => none
  | .transmit => none
  | .accelTimeout _ => none
  | .pasteTimeout _ => none
  | .transferTimeout => none
  | .standbyTimeout _ => none
  | .unknownRequest _ _ => none

end Sys2Proof
end

