-- ==== Sys2Proof/Laws/PerInstr.lean ====
section
/-! SUPPORT. Statements for all commands, one lemma per constructor: a well-formed command that brings a request by its fields has
a header whose target and origin are addresses (9.1, Table 9-2). -/

namespace Sys2Proof.Laws.WellFormed

/-- The header of the request that a well-formed command brings has the widths of its fields. -/
def Statement (i : Instr) : Prop := i.wellFormed = true → ∀ h, i.requestHeader = some h → h.fits = true

theorem resetInput (straps : BitVec 6) : Statement (.resetInput straps) :=
  fun _ _ hr => by cases hr

theorem receiveFrame (f : RxFrame) : Statement (.receiveFrame f) :=
  fun _ _ hr => by cases hr

theorem tally (h : FrameHeader) (delta : Word16) (flags : Byte) : Statement (.tally h delta flags) :=
  fun _ _ hr => by cases hr

theorem reading (h : FrameHeader) (channel : Byte) (value : Word16) : Statement (.reading h channel value) :=
  fun _ _ hr => by cases hr

theorem stateFrame (h : FrameHeader) (word offset : Word16) : Statement (.stateFrame h word offset) :=
  fun _ _ hr => by cases hr

theorem cut (h : FrameHeader) (offset : Word16) (flags : Byte) : Statement (.cut h offset flags) :=
  fun _ _ hr => by cases hr

theorem transmit : Statement .transmit :=
  fun _ _ hr => by cases hr

theorem accelTimeout (stand : Nat) : Statement (.accelTimeout stand) :=
  fun _ _ hr => by cases hr

theorem pasteTimeout (stand : Nat) : Statement (.pasteTimeout stand) :=
  fun _ _ hr => by cases hr

theorem transferTimeout : Statement .transferTimeout :=
  fun _ _ hr => by cases hr

theorem standbyTimeout (zone : Nat) : Statement (.standbyTimeout zone) :=
  fun _ _ hr => by cases hr

theorem identify (h : ReqHeader) (b : Sized Unit) : Statement (.identify h b) :=
  fun hw _ hr => by
  cases hr
  exact hw

theorem read (h : ReqHeader) (b : Sized (Coded Item × Nat)) : Statement (.read h b) :=
  fun hw _ hr => by
  cases hr
  exact hw

theorem readFault (h : ReqHeader) (b : Sized Nat) : Statement (.readFault h b) :=
  fun hw _ hr => by
  cases hr
  exact hw

theorem write (h : ReqHeader) (b : Sized (Coded Item × Nat)) : Statement (.write h b) :=
  fun hw _ hr => by
  cases hr
  exact hw

theorem writeLineGeometry (h : ReqHeader) (b : Sized Geometry) : Statement (.writeLineGeometry h b) :=
  fun hw _ hr => by
  cases hr
  exact hw

theorem writeRejectSpan (h : ReqHeader) (b : Sized (Nat × Span)) : Statement (.writeRejectSpan h b) :=
  fun hw _ hr => by
  cases hr
  exact hw

theorem writeStandConfiguration (h : ReqHeader) (b : Sized Nat) : Statement (.writeStandConfiguration h b) :=
  fun hw _ hr => by
  cases hr
  exact hw

theorem writeStand (h : ReqHeader) (b : Sized (Nat × StandFields)) : Statement (.writeStand h b) :=
  fun hw _ hr => by
  cases hr
  exact hw

theorem writeGrade (h : ReqHeader) (b : Sized (Nat × Option Grade)) : Statement (.writeGrade h b) :=
  fun hw _ hr => by
  cases hr
  exact ((Bool.and_eq_true _ _).mp hw).1

theorem writeZone (h : ReqHeader) (b : Sized (Nat × ZoneFields)) : Statement (.writeZone h b) :=
  fun hw _ hr => by
  cases hr
  exact hw

theorem writeProfile (h : ReqHeader) (b : Sized (Nat × Profile)) : Statement (.writeProfile h b) :=
  fun hw _ hr => by
  cases hr
  exact hw

theorem writeStation (h : ReqHeader) (b : Sized (Nat × StationForm)) : Statement (.writeStation h b) :=
  fun hw _ hr => by
  cases hr
  exact ((Bool.and_eq_true _ _).mp hw).1

theorem loadRejectSpan (h : ReqHeader) (b : Sized (Nat × List Span)) : Statement (.loadRejectSpan h b) :=
  fun hw _ hr => by
  cases hr
  exact hw

theorem loadGrade (h : ReqHeader) (b : Sized (Nat × List (Option Grade))) : Statement (.loadGrade h b) :=
  fun hw _ hr => by
  cases hr
  exact ((Bool.and_eq_true _ _).mp hw).1

theorem loadZone (h : ReqHeader) (b : Sized (Nat × List ZoneFields)) : Statement (.loadZone h b) :=
  fun hw _ hr => by
  cases hr
  exact hw

theorem loadProfile (h : ReqHeader) (b : Sized (Nat × List Profile)) : Statement (.loadProfile h b) :=
  fun hw _ hr => by
  cases hr
  exact hw

theorem loadStation (h : ReqHeader) (b : Sized (Nat × List StationForm)) : Statement (.loadStation h b) :=
  fun hw _ hr => by
  cases hr
  exact ((Bool.and_eq_true _ _).mp hw).1

theorem start (h : ReqHeader) (b : Sized Unit) : Statement (.start h b) :=
  fun hw _ hr => by
  cases hr
  exact hw

theorem restart (h : ReqHeader) (b : Sized Unit) : Statement (.restart h b) :=
  fun hw _ hr => by
  cases hr
  exact hw

theorem modeHold (h : ReqHeader) (b : Sized Unit) : Statement (.modeHold h b) :=
  fun hw _ hr => by
  cases hr
  exact hw

theorem modeSingle (h : ReqHeader) (b : Sized Unit) : Statement (.modeSingle h b) :=
  fun hw _ hr => by
  cases hr
  exact hw

theorem modeAuto (h : ReqHeader) (b : Sized Unit) : Statement (.modeAuto h b) :=
  fun hw _ hr => by
  cases hr
  exact hw

theorem orderAppend (h : ReqHeader) (b : Sized (Nat × OrderFields)) : Statement (.orderAppend h b) :=
  fun hw _ hr => by
  cases hr
  exact ((Bool.and_eq_true _ _).mp hw).1

theorem orderAmend (h : ReqHeader) (b : Sized (OrderId × OrderFields)) : Statement (.orderAmend h b) :=
  fun hw _ hr => by
  cases hr
  exact ((Bool.and_eq_true _ _).mp hw).1

theorem orderCancel (h : ReqHeader) (b : Sized OrderId) : Statement (.orderCancel h b) :=
  fun hw _ hr => by
  cases hr
  exact ((Bool.and_eq_true _ _).mp hw).1

theorem orderFront (h : ReqHeader) (b : Sized OrderId) : Statement (.orderFront h b) :=
  fun hw _ hr => by
  cases hr
  exact ((Bool.and_eq_true _ _).mp hw).1

theorem rollPrepare (h : ReqHeader) (b : Sized (Nat × Coded Arm × RollFields)) : Statement (.rollPrepare h b) :=
  fun hw _ hr => by
  cases hr
  exact hw

theorem rollWithdraw (h : ReqHeader) (b : Sized Nat) : Statement (.rollWithdraw h b) :=
  fun hw _ hr => by
  cases hr
  exact hw

theorem spliceNow (h : ReqHeader) (b : Sized Nat) : Statement (.spliceNow h b) :=
  fun hw _ hr => by
  cases hr
  exact hw

theorem spliceAbort (h : ReqHeader) (b : Sized Nat) : Statement (.spliceAbort h b) :=
  fun hw _ hr => by
  cases hr
  exact hw

theorem latchClear (h : ReqHeader) (b : Sized (Nat × LevelSet)) : Statement (.latchClear h b) :=
  fun hw _ hr => by
  cases hr
  exact hw

theorem clearStop (h : ReqHeader) (b : Sized (Coded StopCause)) : Statement (.clearStop h b) :=
  fun hw _ hr => by
  cases hr
  exact hw

theorem mark (h : ReqHeader) (b : Sized (WebPos × Nat)) : Statement (.mark h b) :=
  fun hw _ hr => by
  cases hr
  exact ((Bool.and_eq_true _ _).mp hw).1

theorem triggerSet (h : ReqHeader) (b : Sized (TriggerForm × Nat × Byte × HeldBody)) : Statement (.triggerSet h b) :=
  fun hw _ hr => by
  cases hr
  exact ((Bool.and_eq_true _ _).mp hw).1

theorem triggerClear (h : ReqHeader) (b : Sized ClearName) : Statement (.triggerClear h b) :=
  fun hw _ hr => by
  cases hr
  exact hw

theorem unknownRequest (h : FrameHeader) (payload : List Byte) : Statement (.unknownRequest h payload) :=
  fun _ _ hr => by cases hr

theorem load (h : ReqHeader) (b : Sized (Coded Item × Nat × Nat)) : Statement (.load h b) :=
  fun hw _ hr => by
  cases hr
  exact hw

end Sys2Proof.Laws.WellFormed
end

