-- ==== Sys2Proof/Laws/Runs.lean ====
section
/-! SUPPORT. What the operations outside the line's work keep: `Runs s t` holds when `t` comes from `s` with the waiting commands
and answers kept and every law of `Safe` kept. One lemma per operation: the intake of tallies, cuts, readings and status words, the holding
slots, the reads, the tables, START and RESTART, and the ring. -/

namespace Sys2Proof.Machine

/-- From `s` to `t` with the waiting commands, the waiting answers and every law kept. -/
structure Runs (s t : State) : Prop where
  pending : t.pending = s.pending
  answers : t.ri.answers = s.ri.answers
  safe : Safe s → Safe t

theorem Runs.refl (s : State) : Runs s s := ⟨rfl, rfl, fun l => l⟩

theorem Runs.trans {a b c : State} (h : Runs a b) (k : Runs b c) : Runs a c :=
  ⟨k.pending.trans h.pending, k.answers.trans h.answers, fun l => k.safe (h.safe l)⟩

theorem length_eq_of_map_eq {α β : Type} {f : α → β} {l m : List α} (h : l.map f = m.map f) : l.length = m.length := by
  simpa using congrArg List.length h

/-- The laws of the line's work, out of those of every moment. -/
theorem Safe.work {s : State} (l : Safe s) : WorkLaws none s where
  line := l.line
  stands := by rcases l.sizes.stands with h | h | h <;> simp [h, Config.standCapacity]
  joints := ⟨l.map.ids, l.map.process, fun m hm k hk => by
      obtain ⟨r, hr, h⟩ := l.map.joints m hm k hk
      exact ⟨r, hr, .inr ⟨by simp, h⟩⟩, fun k r hr _ hw => l.map.unarmed k r hr hw⟩
  orders := l.orders
  rolls := l.rolls
  latches := l.latches

/-- The laws of every moment, out of those of the line's work, the ring and the tables. -/
theorem WorkLaws.safe {s : State} (l : WorkLaws none s) (ring : RingLaws s) (sizes : TableSizes s) : Safe s where
  line := l.line
  ring := ring
  sizes := sizes
  map := ⟨le_trans (l.joints.bound l.stands) (by decide), l.joints.ids, l.joints.process, fun m hm k hk => by
      obtain ⟨r, hr, h | ⟨_, h⟩⟩ := l.joints.joints m hm k hk
      · cases h
      · exact ⟨r, hr, h⟩, fun k r hr hw => l.joints.unarmed k r hr (by simp) hw⟩
  orders := l.orders
  rolls := l.rolls
  latches := l.latches

/-- The laws of the line's work speak of the directive and report queues, the orders, the map, the stands and the trip flags. -/
theorem WorkLaws.same {x : Completing} {s t : State} (l : WorkLaws x s) (directives : t.ri.directives = s.ri.directives)
    (reports : t.ri.reports = s.ri.reports) (orders : t.os = s.os) (marks : t.sm.marks = s.sm.marks) (stands : t.sc = s.sc)
    (trips : t.ts = s.ts) (noMarks : t.me.running = false → s.me.running = false) : WorkLaws x t where
  line := ⟨directives ▸ l.line.directives, reports ▸ l.line.reports, orders ▸ l.line.orders, marks ▸ l.line.mapOrder,
    marks ▸ l.line.uncertainty, stands ▸ l.line.carry, fun r => marks ▸ l.line.noMarks (noMarks r)⟩
  stands := stands ▸ l.stands
  joints := l.joints.congr marks (congrArg ScState.stands stands)
  orders := l.orders.of_feeds (by simp [feedsOf, orders])
  rolls := stands ▸ l.rolls
  latches := trips ▸ l.latches

/-- The tables' sizes through the line's work. -/
theorem Works.sizes {q : Reach} {s t : State} (h : Works q s t) (l : TableSizes s) : TableSizes t where
  stations := h.frame.stations ▸ l.stations
  spans := h.frame.spans ▸ l.spans
  grades := h.frame.grades ▸ l.grades
  zones := (length_eq_of_map_eq h.frame.zones).trans l.zones
  trips := (length_eq_of_map_eq h.frame.readings).trans l.trips
  profiles := h.frame.profiles ▸ l.profiles
  stands := (length_eq_of_map_eq h.frame.stands) ▸ l.stands
  triggers := h.frame.triggers.trans l.triggers

/-- The line's work keeps every law. -/
theorem Works.runs {q : Reach} {s t : State} (h : Works q s t) : Runs s t :=
  ⟨h.frame.pending, h.frame.answers, fun l => by
    have w := h.laws none (fun _ => rfl) l.work
    exact w.safe
      { forwarding := h.frame.forwarding ▸ l.ring.forwarding
        answers := h.frame.answers ▸ l.ring.answers
        slots := h.frame.held ▸ l.ring.slots
        held := fun hn => le_antisymm w.line.reports ((l.ring.held (h.frame.held ▸ hn)) ▸ h.reports)
        lineCount := h.frame.lineCount ▸ l.ring.lineCount } (h.sizes l.sizes)⟩

/-- Work after a run. -/
theorem Runs.work {b s t : State} (h : Runs b s) (w : Works (.loud true) s t) : Runs b t := h.trans w.runs

/-- An update that takes no report out and touches no answer, held report or forwarded frame, with the laws of the line's work kept. -/
theorem Runs.keep {b s t : State} (h : Runs b s) (pending : t.pending = s.pending) (reports : t.ri.reports = s.ri.reports)
    (held : t.ri.held = s.ri.held) (forwarding : t.ri.forwarding = s.ri.forwarding) (answers : t.ri.answers = s.ri.answers)
    (count : s.pt.lineCount ≤ lineCountMax → t.pt.lineCount ≤ lineCountMax) (work : Safe s → WorkLaws none t)
    (sizes : TableSizes s → TableSizes t) : Runs b t :=
  h.trans ⟨pending, answers, fun l => (work l).safe
    ⟨forwarding ▸ l.ring.forwarding, answers ▸ l.ring.answers, held ▸ l.ring.slots,
     fun hn => reports ▸ l.ring.held (held ▸ hn), count l.ring.lineCount⟩ (sizes l.sizes)⟩

/-- An update of fields that no law speaks of, or that keeps the size the laws speak of. -/
theorem Runs.soft {b s t : State} (h : Runs b s) (pending : t.pending = s.pending)
    (directives : t.ri.directives = s.ri.directives) (reports : t.ri.reports = s.ri.reports)
    (held : t.ri.held = s.ri.held) (forwarding : t.ri.forwarding = s.ri.forwarding)
    (answers : t.ri.answers = s.ri.answers) (orders : t.os = s.os) (marks : t.sm.marks = s.sm.marks)
    (stands : t.sc = s.sc) (trips : t.ts = s.ts) (noMarks : t.me.running = false → s.me.running = false)
    (count : s.pt.lineCount ≤ lineCountMax → t.pt.lineCount ≤ lineCountMax)
    (sizes : TableSizes s → TableSizes t) : Runs b t :=
  h.keep pending reports held forwarding answers count
    (fun l => l.work.same directives reports orders marks stands trips noMarks) sizes

theorem Runs.ite {b x y : State} {c : Prop} [Decidable c] (hx : Runs b x) (hy : Runs b y) : Runs b (if c then x else y) := by
  split <;> assumption

theorem Runs.foldl {α : Type} {b : State} {f : State → α → State} (hf : ∀ s x, Runs b s → Runs b (f s x)) {s : State}
    (l : List α) (h : Runs b s) : Runs b (l.foldl f s) := by
  induction l generalizing s with
  | nil => exact h
  | cons x t ih => exact ih (hf s x h)

theorem evaluate_works {u : Bool} (b s : State) (h : Works (.loud u) b s) : Works (.loud u) b (evaluate s) := h.evaluate

theorem Runs.evaluate {b s : State} (h : Runs b s) : Runs b (Machine.evaluate s) := h.work (Works.refl s).evaluate

theorem Runs.report {b s : State} (h : Runs b s) (x : ReportBody) : Runs b (Machine.report x s) := h.work (works_report x s)

/-! ## Tallies -/

theorem Runs.setTallySeq {b s : State} (h : Runs b s) (q : Byte) : Runs b (Machine.setTallySeq q s) :=
  h.soft rfl rfl rfl rfl rfl rfl rfl rfl rfl rfl (fun l => l) (fun l => l) fun l =>
    ⟨l.stations, l.spans, l.grades, l.zones, l.trips, l.profiles, l.stands, l.triggers⟩

theorem Runs.stoppedChange {b s : State} (h : Runs b s) (was now : Bool) : Runs b (Machine.stoppedChange was now s) :=
  h.work ((Works.refl s).stoppedChange was now)

theorem Runs.takeGap {b s : State} (h : Runs b s) (k : Nat) : Runs b (Machine.takeGap k s) := by
  unfold Machine.takeGap
  refine Runs.work ?_ (Works.refl _).examineTracking
  refine Runs.soft (s := chargeGap Machine.evaluate (k * s.pt.geometry.maxDelta) (raiseUncertainty (k * s.pt.geometry.maxDelta) s))
    ?_ rfl rfl rfl rfl rfl rfl rfl rfl rfl rfl (fun l => l) (fun l => l) fun l =>
      ⟨l.stations, l.spans, l.grades, l.zones, l.trips, l.profiles, l.stands, l.triggers⟩
  exact h.work (((Works.refl s).raiseUncertainty _).chargeGap (evaluate_works s) _)

theorem Runs.advance {b s : State} (h : Runs b s) (seq : Byte) (delta : Nat) (stopped : Bool) :
    Runs b (Machine.advance seq delta stopped s) := by
  unfold Machine.advance
  have h1 : Runs b { s with pt := { s.pt with
      lineCount := satAdd lineCountMax s.pt.lineCount delta, speed := tallySpeed s delta, stopped := stopped } } :=
    h.soft rfl rfl rfl rfl rfl rfl rfl rfl rfl rfl (fun l => l) (fun _ => min_le_left _ _) fun l =>
      ⟨l.stations, l.spans, l.grades, l.zones, l.trips, l.profiles, l.stands, l.triggers⟩
  have h2 := (h1.stoppedChange s.pt.stopped stopped).setTallySeq seq
  exact Runs.ite (h2.report _) h2

theorem Runs.takeExpectedTally {b s : State} (h : Runs b s) (seq : Byte) (delta : Nat) (stopped : Bool) :
    Runs b (Machine.takeExpectedTally seq delta stopped s) :=
  (h.advance seq delta stopped).work ((Works.refl _).handNewCount delta)

theorem Runs.takeTally {b s : State} (h : Runs b s) (seq : Byte) (delta : Nat) (stopped : Bool) :
    Runs b (Machine.takeTally seq delta stopped s) := by
  unfold Machine.takeTally
  split
  · exact h.setTallySeq seq
  · split
    · exact h.takeExpectedTally seq delta stopped
    · split
      · exact h
      · exact h.takeExpectedTally seq delta stopped
      · exact (h.takeGap _).takeExpectedTally seq delta stopped

/-! ## Cuts and readings -/

theorem Runs.setCutSeq {b s : State} (h : Runs b s) (q : Byte) : Runs b (Machine.setCutSeq q s) :=
  h.soft rfl rfl rfl rfl rfl rfl rfl rfl rfl rfl (fun l => l) (fun l => l) fun l =>
    ⟨l.stations, l.spans, l.grades, l.zones, l.trips, l.profiles, l.stands, l.triggers⟩

theorem Runs.takeCut {b s : State} (h : Runs b s) (seq : Byte) (offset : Nat) (trim : Bool) :
    Runs b (Machine.takeCut seq offset trim s) := by
  unfold Machine.takeCut
  split
  · exact h.setCutSeq seq
  · split
    · exact (h.setCutSeq seq).work ((Works.refl _).takeExpectedCut offset trim)
    · split
      · exact h.work ((Works.refl _).modCounters _)
      · exact (h.setCutSeq seq).work ((Works.refl _).takeExpectedCut offset trim)
      · exact (h.setCutSeq seq).work ((Works.refl _).takeGapCut _ offset trim)

/-- A change of the Trip and Standby unit that keeps the number of zones and their latches. -/
theorem Runs.setTs {b s : State} (h : Runs b s) {t : TsState} (ht : t.zones.length = s.ts.zones.length)
    (latches : (∀ x ∈ s.ts.zones, Latched x) → ∀ x ∈ t.zones, Latched x) : Runs b { s with ts := t } :=
  h.keep rfl rfl rfl rfl rfl (fun l => l)
    (fun l => ⟨⟨l.line.directives, l.line.reports, l.line.orders, l.line.mapOrder, l.line.uncertainty, l.line.carry, l.line.noMarks⟩,
      l.work.stands, l.work.joints.congr rfl rfl, l.orders.of_feeds rfl, l.rolls, latches l.latches⟩) fun l =>
    ⟨l.stations, l.spans, l.grades, l.zones, ht.trans l.trips, l.profiles, l.stands, l.triggers⟩

theorem Runs.modTrip {b s : State} (h : Runs b s) (n : Nat) {f : ZoneTrip → ZoneTrip} (hl : ∀ t, Latched t → Latched (f t)) :
    Runs b (Machine.modTrip n f s) :=
  h.setTs (by simp) (forall_modify hl n)

theorem Runs.takeReading {b s : State} (h : Runs b s) (origin channel : Nat) (v : Int) :
    Runs b (Machine.takeReading Machine.evaluate origin channel v s) := by
  unfold Machine.takeReading
  split
  · exact h.setTs rfl fun l => l
  · next n _ =>
    have h0 : Runs b (Machine.modTrip n (fun t => { t with lastReading := some ⟨v, s.pt.lineCount⟩ }) s) :=
      h.modTrip n fun _ l => ⟨l.low, l.high, l.cutout⟩
    have h1 : Runs b _ := h0.setTs
      (t := { (Machine.modTrip n (fun t => { t with lastReading := some ⟨v, s.pt.lineCount⟩ }) s).ts with
        readingsTaken := bump (Machine.modTrip n (fun t => { t with lastReading := some ⟨v, s.pt.lineCount⟩ }) s).ts.readingsTaken 1 })
      rfl fun l => l
    exact Runs.ite (h1.work ((Works.refl _).evaluateReading (evaluate_works _) n v)) h1

/-! ## Status words and holding slots (R176 to R178) -/

theorem Runs.setStation {b s : State} (h : Runs b s) (i : Nat) (e : Option Station) : Runs b (Machine.setStation i e s) :=
  h.soft rfl rfl rfl rfl rfl rfl rfl rfl rfl rfl (fun l => l) (fun l => l) fun l =>
    ⟨by simpa [Machine.setStation] using l.stations, l.spans, l.grades, l.zones, l.trips, l.profiles, l.stands, l.triggers⟩

/-- Held reports changed while the report queue is full, with at most two for an entry. -/
theorem Runs.setHeld {b s : State} (h : Runs b s) {hs : List HeldReport}
    (slots : Safe s → ∀ i, (hs.filter fun x => x.entry == i).length ≤ 2)
    (full : Safe s → hs ≠ [] → s.ri.reports.length = Config.reportCapacity) : Runs b (Machine.setHeld hs s) :=
  h.trans ⟨rfl, rfl, fun l => (l.work.same (t := Machine.setHeld hs s) rfl rfl rfl rfl rfl rfl fun l => l).safe
    ⟨l.ring.forwarding, l.ring.answers, slots l, full l, l.ring.lineCount⟩
    ⟨l.sizes.stations, l.sizes.spans, l.sizes.grades, l.sizes.zones, l.sizes.trips, l.sizes.profiles, l.sizes.stands,
     l.sizes.triggers⟩⟩

theorem modSecondSlot_entries (i : Nat) {f : HeldReport → HeldReport} (hf : ∀ x, (f x).entry = x.entry) (n : Nat)
    (l : List HeldReport) : (modSecondSlot i f n l).map (·.entry) = l.map (·.entry) := by
  induction l generalizing n with
  | nil => rfl
  | cons x t ih =>
    unfold modSecondSlot
    split
    · split
      · simp [hf]
      · simp [ih]
    · simp [ih]

theorem length_filter_entry (i : Nat) (l : List HeldReport) :
    (l.filter fun h => h.entry == i).length = ((l.map (·.entry)).filter (· == i)).length := by
  induction l with
  | nil => rfl
  | cons x t ih => simp only [List.map_cons, List.filter_cons]; split <;> simp [ih]

theorem Runs.placeChange {b s : State} (h : Runs b s) (i : Nat) (watch : Word16) (r : ChangeReport) :
    Runs b (Machine.placeChange i watch r s) := by
  unfold Machine.placeChange
  split
  · exact h.report _
  · next hc =>
    have full : Safe s → s.ri.reports.length = Config.reportCapacity := by
      intro l
      by_cases hq : s.ri.held = []
      · simp only [slotsOf, hq, List.filter_nil, List.isEmpty_nil, Bool.true_and, decide_eq_true_eq, not_lt] at hc
        exact le_antisymm l.line.reports hc
      · exact l.ring.held hq
    split
    · next hl =>
      refine h.setHeld (fun l j => ?_) fun l _ => full l
      simp only [List.filter_append, List.length_append]
      by_cases hj : i = j
      · subst hj
        simp only [slotsOf] at hl
        simp
        omega
      · have := l.ring.slots j
        simp [hj]
        exact this
    · refine h.setHeld (fun l j => ?_) fun l _ => full l
      rw [length_filter_entry, modSecondSlot_entries i (f := mergeReport watch r) (fun _ => rfl), ← length_filter_entry]
      exact l.ring.slots j

theorem Runs.reportChange {b s : State} (h : Runs b s) (i : Nat) (e : Station) (w : Word16) :
    Runs b (Machine.reportChange i e w s) := by
  unfold Machine.reportChange
  exact Runs.ite h (h.placeChange _ _ _)

theorem Runs.takeState {b s : State} (h : Runs b s) (i : Nat) (e : Station) (w o : Word16) :
    Runs b (Machine.takeState i e w o s) :=
  ((h.setStation i _).reportChange i e w).work ((Works.refl _).dispatchWord _ _ _ _ _)

theorem Runs.discardHeld {b s : State} (h : Runs b s) (i : Nat) : Runs b (Machine.discardHeld i s) :=
  h.trans ⟨rfl, rfl, fun l => (l.work.same (t := Machine.discardHeld i s) rfl rfl rfl rfl rfl rfl fun l => l).safe
    ⟨l.ring.forwarding, l.ring.answers,
     fun j => le_trans (List.Sublist.length_le (List.Sublist.filter _ (List.filter_sublist))) (l.ring.slots j),
     fun hn => l.ring.held fun he => hn (by simp [Machine.discardHeld, he]), l.ring.lineCount⟩
    ⟨l.sizes.stations, l.sizes.spans, l.sizes.grades, l.sizes.zones, l.sizes.trips, l.sizes.profiles, l.sizes.stands,
     l.sizes.triggers⟩⟩

/-- Every law but that of the held reports and the report queue. -/
structure SafeMoving (s : State) : Prop where
  work : WorkLaws none s
  forwarding : s.ri.forwarding.length ≤ Config.forwardingCapacity
  answers : (s.ri.answers.map (·.slot)).Nodup
  slots : ∀ i, (s.ri.held.filter fun h => h.entry == i).length ≤ 2
  lineCount : s.pt.lineCount ≤ lineCountMax
  sizes : TableSizes s

/-- With the law of the held reports every law holds. -/
theorem SafeMoving.safe {s : State} (l : SafeMoving s) (h : s.ri.held ≠ [] → s.ri.reports.length = Config.reportCapacity) : Safe s :=
  l.work.safe ⟨l.forwarding, l.answers, l.slots, h, l.lineCount⟩ l.sizes

/-- Moving held reports while entries are free restores the law that a report is held only behind a full queue (R178). -/
theorem moveHeld_safe (f : Nat) {s : State} (hf : s.ri.held.length ≤ f) (l : SafeMoving s) :
    Safe (moveHeld f s) ∧ (moveHeld f s).pending = s.pending := by
  induction f generalizing s with
  | zero =>
    have : s.ri.held = [] := List.eq_nil_of_length_eq_zero (Nat.le_zero.mp hf)
    exact ⟨l.safe fun hn => absurd this hn, rfl⟩
  | succ f ih =>
    unfold moveHeld
    split
    · next he => exact ⟨l.safe fun hn => absurd he hn, rfl⟩
    · next x t he =>
      split
      · next hr =>
        have hs : ∀ i, (t.filter fun h => h.entry == i).length ≤ 2 := fun i =>
          le_trans (List.Sublist.length_le (List.Sublist.filter _ (he ▸ List.sublist_cons_self x t))) (l.slots i)
        have w : Works .quiet (setHeld t s) _ := works_report (.change x.report) (setHeld t s)
        have l1 : WorkLaws none (setHeld t s) := l.work.same rfl rfl rfl rfl rfl rfl fun l => l
        have l2 : SafeMoving (report (.change x.report) (setHeld t s)) :=
          { work := w.laws none (by simp) l1
            forwarding := w.frame.forwarding ▸ l.forwarding
            answers := w.frame.answers ▸ l.answers
            slots := w.frame.held ▸ hs
            lineCount := w.frame.lineCount ▸ l.lineCount
            sizes := w.sizes ⟨l.sizes.stations, l.sizes.spans, l.sizes.grades, l.sizes.zones, l.sizes.trips, l.sizes.profiles,
              l.sizes.stands, l.sizes.triggers⟩ }
        have hlen : (report (.change x.report) (setHeld t s)).ri.held.length ≤ f := by
          rw [w.frame.held]
          have : (x :: t).length ≤ f + 1 := he ▸ hf
          simpa using this
        have := ih hlen l2
        exact ⟨this.1, this.2.trans w.frame.pending⟩
      · next hr => exact ⟨l.safe fun _ => le_antisymm l.work.line.reports (not_lt.mp hr), rfl⟩

end Sys2Proof.Machine
end

