-- ==== Sys2Proof/Laws/Rules.lean ====
section
/-! SUPPORT. Every request's rule, START, RESTART and the transmit pin keep the laws (`Runs`): one lemma per rule. -/

namespace Sys2Proof.Machine

/-! ## Reads (R190) -/

theorem Runs.setFreeIndex {b s : State} (h : Runs b s) (n : Nat) : Runs b { s with freeIndex := n } :=
  h.soft rfl rfl rfl rfl rfl rfl rfl rfl rfl rfl (fun l => l) (fun l => l) fun l =>
    ⟨l.stations, l.spans, l.grades, l.zones, l.trips, l.profiles, l.stands, l.triggers⟩

theorem Runs.timeLeftOf {b s : State} (h : Runs b s) (t : Option Nat) : Runs b (Machine.timeLeftOf t s).1 := by
  cases t with
  | none => exact h
  | some d => exact h.setFreeIndex _

theorem Runs.readFaultRecord {b s : State} (h : Runs b s) : Runs b (Machine.readFaultRecord s).1 :=
  h.soft rfl rfl rfl rfl rfl rfl rfl rfl rfl rfl (fun l => l) (fun l => l) fun l =>
    ⟨l.stations, l.spans, l.grades, l.zones, l.trips, l.profiles, l.stands, l.triggers⟩

theorem Runs.readOr {b s : State} (h : Runs b s) (r : Reason) (v : Option ItemValue) : Runs b (Machine.readOr r v s).1 := by
  cases v <;> exact h

theorem Runs.readTrip {b s : State} (h : Runs b s) (n : Nat) : Runs b (Machine.readTrip n s).1 := by
  unfold Machine.readTrip
  split
  · exact h
  · split
    · exact h
    · exact h.timeLeftOf _

theorem Runs.readItem {b s : State} (h : Runs b s) (x : Item) (i : Nat) : Runs b (Machine.readItem x i s).1 := by
  cases x
  case stackerStatus => exact h.timeLeftOf _
  case tripStatus => exact h.readTrip i
  case fault => exact h.readFaultRecord
  case mapEntry => exact h.readOr _ _
  case order => exact h.readOr _ _
  case stand => exact h.readOr _ _
  case zone => exact h.readOr _ _
  case profile => exact h.readOr _ _
  case knifeStatus => rcases i with _ | _ | _ <;> exact h
  all_goals (simp only [Machine.readItem]; first | exact h | (split <;> exact h))

theorem Runs.ruleRead {b s : State} (h : Runs b s) (x : Coded Item) (i : Nat) : Runs b (Machine.ruleRead x i s).1 := by
  cases x with
  | named x => exact h.readItem x i
  | beyond _ => exact h

/-! ## Tables (R191, R192) -/

theorem Runs.refuseOr {b s : State} (h : Runs b s) (r : Option Reply) {f : State → State} (hf : Runs b s → Runs b (f s)) :
    Runs b (Machine.refuseOr r f s).1 := by
  cases r with
  | none => exact hf h
  | some _ => exact h

theorem Runs.groupsThen {b s : State} (h : Runs b s) (mask : Byte) (n : Nat) {rule : State → State × Reply}
    (hr : Runs b s → Runs b (rule s).1) : Runs b (Machine.groupsThen mask n rule s).1 := by
  unfold Machine.groupsThen
  split
  · exact h
  · split
    · exact h
    · exact hr h

theorem Runs.applyGeometry {b s : State} (h : Runs b s) (mask : Byte) (g : Geometry) : Runs b (Machine.applyGeometry mask g s) := by
  have h1 : Runs b { s with pt := { s.pt with geometry := writeGeometry mask g s.pt.geometry } } :=
    h.soft rfl rfl rfl rfl rfl rfl rfl rfl rfl rfl (fun l => l) (fun l => l) fun l =>
      ⟨l.stations, l.spans, l.grades, l.zones, l.trips, l.profiles, l.stands, l.triggers⟩
  have h2 := Runs.ite (c := masked mask 2 = true) (h1.work (Works.refl _).examineTracking) h1
  exact Runs.ite h2.evaluate h2

theorem Runs.setSpan {b s : State} (h : Runs b s) (i : Nat) (v : Span) : Runs b (Machine.setSpan i v s) :=
  h.soft rfl rfl rfl rfl rfl rfl rfl rfl rfl rfl (fun l => l) (fun l => l) fun l =>
    ⟨l.stations, by simpa [Machine.setSpan] using l.spans, l.grades, l.zones, l.trips, l.profiles, l.stands, l.triggers⟩

theorem Runs.ruleLoadSpan {b s : State} (h : Runs b s) (first : Nat) (vs : List Span) :
    Runs b (Machine.ruleLoadSpan first vs s).1 := by
  unfold Machine.ruleLoadSpan
  dsimp only
  split
  · exact h
  · exact h.refuseOr _ fun h => Runs.foldl (fun s e h => h.setSpan e.1 e.2) _ h

theorem standOf_resizeStands {s : State} {n k : Nat} {r : Stand}
    (h : standOf { s with sc := { s.sc with stands := resizeStands n s.sc.stands } } k = some r) :
    standOf s k = some r ∨ r = newStand := by
  cases k with
  | zero => simp [standOf] at h
  | succ i =>
    simp only [standOf, resizeStands, List.getElem?_append] at h
    split at h
    · next hlt =>
      rw [List.getElem?_take] at h
      split at h
      · exact .inl h
      · cases h
    · exact .inr (List.mem_replicate.mp (List.mem_of_getElem? h)).2

/-- WRITE of the stand configuration, in CONFIGURING, where the map is empty (R110, R18). -/
theorem Runs.ruleWriteStandConfiguration {b s : State} (h : Runs b s) (n : Nat) :
    Runs b (Machine.ruleWriteStandConfiguration n s).1 := by
  unfold Machine.ruleWriteStandConfiguration
  split
  · exact h
  · next hn =>
    simp only [Bool.and_eq_true, bne_iff_ne, ne_eq] at hn
    have hlen : (resizeStands n s.sc.stands).length = n := by
      simp only [resizeStands, List.length_append, List.length_take, List.length_replicate]
      omega
    split
    · exact h
    · next hr =>
      have hr : s.me.running = false := by simpa using hr
      refine h.keep rfl rfl rfl rfl rfl (fun l => l) (fun l => ?_) fun l =>
        ⟨l.stations, l.spans, l.grades, l.zones, l.trips, l.profiles, ?_, l.triggers⟩
      · refine ⟨⟨l.line.directives, l.line.reports, l.line.orders, l.line.mapOrder, l.line.uncertainty, fun r hr => ?_, l.line.noMarks⟩,
          ?_, ⟨l.map.ids, l.map.process, fun m hm => ?_, fun k r hr _ hw => ?_⟩, l.orders.of_feeds rfl, ?_, l.latches⟩
        · rcases List.mem_append.mp hr with hr | hr
          · exact l.line.carry r (List.mem_of_mem_take hr)
          · rw [(List.mem_replicate.mp hr).2]
            decide
        · simp only [hlen, Config.standCapacity]
          omega
        · have hm : m ∈ s.sm.marks := hm
          rw [l.line.noMarks hr] at hm
          cases hm
        · rcases standOf_resizeStands hr with hr | rfl
          · exact l.map.unarmed k r hr hw
          · rfl
        · have h1 : (List.replicate (n - s.sc.stands.length) newStand).flatMap rollIds = [] := by
            simp [rollIds, newStand, StandbyArm.roll]
          simp only [resizeStands, List.flatMap_append, h1, List.append_nil]
          refine l.rolls.sublist ?_
          conv_rhs => rw [← List.take_append_drop n s.sc.stands, List.flatMap_append]
          exact List.sublist_append_left _ _
      · simp only [hlen]
        omega

/-- A change of one stand's settings. -/
theorem Runs.modStand {b s : State} (h : Runs b s) {k : Nat} {f : Stand → Stand} (hs : ∀ r, StandStep r (f r)) :
    Runs b (Machine.modStand k f s) := by
  cases k with
  | zero => exact h
  | succ i =>
    refine h.keep rfl rfl rfl rfl rfl (fun l => l) (fun l => ?_) fun l =>
      ⟨l.stations, l.spans, l.grades, l.zones, l.trips, l.profiles, ?_, l.triggers⟩
    · exact ⟨⟨l.line.directives, l.line.reports, l.line.orders, l.line.mapOrder, l.line.uncertainty,
          forall_modify (fun r => (hs r).carry) i l.line.carry, l.line.noMarks⟩,
        by simpa [Machine.modStand] using l.work.stands, l.work.joints.modStand fun r _ => hs r, l.orders.of_feeds rfl,
        nodup_flatMap_modify (fun r _ => (hs r).rolls) l.rolls, l.latches⟩
    · simpa [Machine.modStand] using l.stands

theorem StandStep.write (mask : Byte) (v : StandFields) (r : Stand) : StandStep r (writeStandFields mask v r) := by
  simp only [writeStandFields]
  split <;> split <;> exact StandStep.same rfl rfl rfl rfl

theorem Runs.ruleWriteStand {b s : State} (h : Runs b s) (mask : Byte) (k : Nat) (v : StandFields) :
    Runs b (Machine.ruleWriteStand mask k v s).1 :=
  h.groupsThen mask 2 fun h => h.refuseOr _ fun h => h.modStand (StandStep.write mask v)

/-- A change of the Zone Regulator's tables that keeps their sizes. -/
theorem Runs.setZr {b s : State} (h : Runs b s) {z : ZrState} (hg : z.grades.length = s.zr.grades.length)
    (hz : z.zones.length = s.zr.zones.length) (hp : z.profiles.length = s.zr.profiles.length) :
    Runs b { s with zr := z } :=
  h.soft rfl rfl rfl rfl rfl rfl rfl rfl rfl rfl (fun l => l) (fun l => l) fun l =>
    ⟨l.stations, l.spans, hg.trans l.grades, hz.trans l.zones, l.trips, hp.trans l.profiles, l.stands, l.triggers⟩

theorem Runs.setGrade {b s : State} (h : Runs b s) (g : Nat) (v : Option Grade) : Runs b (Machine.setGrade g v s) :=
  h.setZr (by simp) rfl rfl

theorem Runs.gradeInForce {b s : State} (h : Runs b s) (g : Nat) : Runs b (Machine.gradeInForce g s) :=
  Runs.ite (h.work ((Works.refl s).applyGrade (evaluate_works s) g)) h

theorem Runs.gradeEffects {b s : State} (h : Runs b s) (g : Nat) : Runs b (Machine.gradeEffects g s) := (h.gradeInForce g).evaluate

theorem Runs.ruleWriteGrade {b s : State} (h : Runs b s) (force : Bool) (g : Nat) (v : Option Grade) :
    Runs b (Machine.ruleWriteGrade force g v s).1 :=
  h.refuseOr _ fun h => (h.setGrade g v).gradeEffects g

theorem Runs.ruleLoadGrade {b s : State} (h : Runs b s) (force : Bool) (first : Nat) (vs : List (Option Grade)) :
    Runs b (Machine.ruleLoadGrade force first vs s).1 := by
  unfold Machine.ruleLoadGrade
  dsimp only
  split
  · exact h
  · refine h.refuseOr _ fun h => Runs.foldl (fun s e h => h.gradeEffects e.1) _ ?_
    exact Runs.foldl (fun s e h => h.setGrade e.1 e.2) _ h

theorem Runs.setZone {b s : State} (h : Runs b s) (mask : Byte) (n : Nat) (v : ZoneFields) :
    Runs b (Machine.setZone mask n v s) := by
  have h1 : Runs b (Machine.modZone n (writeZoneFields mask v) s) := h.setZr rfl (by simp) rfl
  exact Runs.ite (h1.modTrip n fun _ l => ⟨l.low, l.high, l.cutout⟩) h1

theorem Runs.ruleWriteZone {b s : State} (h : Runs b s) (mask : Byte) (n : Nat) (v : ZoneFields) :
    Runs b (Machine.ruleWriteZone mask n v s).1 :=
  h.groupsThen mask 4 fun h => h.refuseOr _ fun h => h.setZone mask n v

theorem Runs.ruleLoadZone {b s : State} (h : Runs b s) (mask : Byte) (first : Nat) (vs : List ZoneFields) :
    Runs b (Machine.ruleLoadZone mask first vs s).1 := by
  unfold Machine.ruleLoadZone
  dsimp only
  split
  · exact h
  · exact h.groupsThen mask 4 fun h => h.refuseOr _ fun h => Runs.foldl (fun s e h => h.setZone mask e.1 e.2) _ h

theorem Runs.setProfile {b s : State} (h : Runs b s) (i : Nat) (p : Profile) : Runs b (Machine.setProfile i p s) :=
  h.setZr rfl rfl (by simp)

theorem Runs.ruleLoadProfile {b s : State} (h : Runs b s) (first : Nat) (vs : List Profile) :
    Runs b (Machine.ruleLoadProfile first vs s).1 := by
  unfold Machine.ruleLoadProfile
  dsimp only
  split
  · exact h
  · exact h.refuseOr _ fun h => Runs.foldl (fun s e h => h.setProfile e.1 e.2) _ h

theorem Runs.writeStation {b s : State} (h : Runs b s) (mask : Byte) (i : Nat) (v : StationForm) :
    Runs b (Machine.writeStation mask i v s) :=
  Runs.ite ((h.setStation i _).discardHeld i) (h.setStation i _)

theorem Runs.ruleWriteStation {b s : State} (h : Runs b s) (mask : Byte) (i : Nat) (v : StationForm) :
    Runs b (Machine.ruleWriteStation mask i v s).1 :=
  h.groupsThen mask 2 fun h => h.refuseOr _ fun h => h.writeStation mask i v

theorem Runs.ruleLoadStation {b s : State} (h : Runs b s) (mask : Byte) (first : Nat) (vs : List StationForm) :
    Runs b (Machine.ruleLoadStation mask first vs s).1 := by
  unfold Machine.ruleLoadStation
  dsimp only
  split
  · exact h
  · exact h.groupsThen mask 2 fun h => h.refuseOr _ fun h => Runs.foldl (fun s e h => h.writeStation mask e.1 e.2) _ h

theorem Runs.ruleWritePlain {b s : State} (h : Runs b s) (mask : Byte) (x : Coded Item) :
    Runs b (Machine.ruleWritePlain mask x s).1 := by
  unfold Machine.ruleWritePlain
  split
  · exact h
  · split
    · exact h
    · split
      · exact h.groupsThen _ _ fun h => h
      · exact h

theorem Runs.ruleLoadPlain {b s : State} (h : Runs b s) (mask : Byte) (x : Coded Item) (first count : Nat) :
    Runs b (Machine.ruleLoadPlain mask x first count s).1 := by
  unfold Machine.ruleLoadPlain
  split
  · exact h
  · split
    · exact h
    · split
      · exact h
      · split
        · split
          · exact h.groupsThen _ _ fun h => h
          · exact h
        · exact h

/-! ## START and RESTART (R195, R196) -/

theorem Runs.copyAddresses {b s : State} (h : Runs b s) : Runs b (Machine.copyAddresses s) :=
  Runs.foldl (fun s k h =>
    h.modStand (f := fun r => { r with address := (stationIn s (.stand k)).map (·.address) })
      fun _ => StandStep.same rfl rfl rfl rfl) _ h

theorem Runs.startEffects {b s : State} (h : Runs b s) : Runs b (Machine.startEffects s) := by
  have h1 : Runs b (enterRunning s) :=
    h.soft rfl rfl rfl rfl rfl rfl rfl rfl rfl rfl (fun l => by cases l) (fun _ => Nat.zero_le _) fun l =>
      ⟨l.stations, l.spans, l.grades, l.zones, l.trips, l.profiles, l.stands, l.triggers⟩
  exact h1.copyAddresses.work ((((((Works.refl _).direct _ _).knifeStart .a).knifeStart .b).cutsStart.tripsStart
    (evaluate_works _)).evaluate)

theorem Runs.ruleStart {b s : State} (h : Runs b s) : Runs b (Machine.ruleStart s).1 := h.refuseOr _ fun h => h.startEffects

theorem Runs.leaveRunning {b s : State} (h : Runs b s) : Runs b (Machine.leaveRunning s) :=
  h.keep rfl rfl rfl rfl rfl (fun l => l)
    (fun l => ⟨⟨⟨by simp [Machine.leaveRunning], by simp [Machine.leaveRunning], fun _ => by simp [Machine.leaveRunning]⟩,
        l.line.reports, l.line.orders, by simp [Machine.leaveRunning],
        fun m hm => absurd hm (by simp [Machine.leaveRunning]), l.line.carry, fun _ => rfl⟩, l.work.stands,
      ⟨by simp [Machine.leaveRunning], by simp [Machine.leaveRunning], fun m hm => absurd hm (by simp [Machine.leaveRunning]),
        l.work.joints.unarmed⟩, l.orders.of_feeds rfl, l.rolls, l.latches⟩) fun l =>
    ⟨l.stations, l.spans, l.grades, l.zones, l.trips, l.profiles, l.stands, l.triggers⟩

theorem Runs.cutsRestart {b s : State} (h : Runs b s) : Runs b (Machine.cutsRestart s) := by
  have h1 := h.work (((Works.refl s).abandonStack s.cs.stacker.current).abandonStack s.cs.stacker.deck)
  exact h1.soft rfl rfl rfl rfl rfl rfl rfl rfl rfl rfl (fun l => l) (fun l => l) fun l =>
    ⟨l.stations, l.spans, l.grades, l.zones, l.trips, l.profiles, l.stands, l.triggers⟩

theorem Runs.zonesRestart {b s : State} (h : Runs b s) : Runs b (Machine.zonesRestart s) := h.setZr rfl (by simp) rfl

theorem Runs.triggersRestart {b s : State} (h : Runs b s) : Runs b (Machine.triggersRestart s) :=
  h.soft rfl rfl rfl rfl rfl rfl rfl rfl rfl rfl (fun l => l) (fun l => l) fun l =>
    ⟨l.stations, l.spans, l.grades, l.zones, l.trips, l.profiles, l.stands, by simp [Machine.triggersRestart]⟩

theorem Runs.ordersRestart {b s : State} (h : Runs b s) : Runs b (Machine.ordersRestart s) := h.work (Works.refl s).ordersRestart

theorem Runs.knifeRestart {b s : State} (h : Runs b s) (k : KnifeId) : Runs b (Machine.knifeRestart k s) :=
  h.work ((Works.refl s).knifeRestart k)

theorem Runs.splicesRestart {b s : State} (h : Runs b s) (hn : s.me.running = false) : Runs b (Machine.splicesRestart s) :=
  h.work ((Works.refl s).splicesRestart hn)

theorem Runs.tripsRestart {b s : State} (h : Runs b s) : Runs b (Machine.tripsRestart s) := h.work (Works.refl s).tripsRestart

theorem Runs.restartEffects {b s : State} (h : Runs b s) : Runs b (Machine.restartEffects s) := by
  have h1 := ((h.leaveRunning.ordersRestart.knifeRestart .a).knifeRestart .b).cutsRestart
  have w := (((Works.refl (q := .loud true) (Machine.leaveRunning s)).ordersRestart.knifeRestart .a).knifeRestart .b)
  have hn : (Machine.cutsRestart (Machine.knifeRestart .b (Machine.knifeRestart .a
      (Machine.ordersRestart (Machine.leaveRunning s))))).me.running = false :=
    ((w.abandonStack _).abandonStack _).frame.running
  exact ((h1.splicesRestart hn).zonesRestart.tripsRestart).triggersRestart

theorem Runs.ruleRestart {b s : State} (h : Runs b s) : Runs b (Machine.ruleRestart s).1 := by
  unfold Machine.ruleRestart
  split
  · exact h.restartEffects
  · exact h

/-! ## The Management Engine -/

theorem Runs.ruleClearStop {b s : State} (h : Runs b s) (c : Coded StopCause) : Runs b (Machine.ruleClearStop c s).1 := by
  unfold Machine.ruleClearStop
  split
  · exact h
  · split
    · exact h
    · split
      · exact h
      · exact h.work ((Works.refl s).removeStop _)

theorem Runs.ruleTriggerSet {b s : State} (h : Runs b s) (src : MgmtSource) (f : TriggerForm) (tag : Nat) (ht : Byte)
    (b' : HeldBody) : Runs b (Machine.ruleTriggerSet src f tag ht b' s).1 := by
  unfold Machine.ruleTriggerSet
  repeat' first
    | exact h
    | exact h.work ((Works.refl s).setTrigger _ _)
    | split

theorem Runs.ruleTriggerClear {b s : State} (h : Runs b s) (src : MgmtSource) (n : ClearName) :
    Runs b (Machine.ruleTriggerClear src n s).1 := by
  unfold Machine.ruleTriggerClear
  repeat' first
    | exact h
    | exact h.work ((Works.refl s).setTrigger _ _)
    | exact h.work ((Works.refl s).removeTriggers _)
    | split
    | dsimp only

theorem Runs.applyBody {b s : State} (h : Runs b s) (hd : ReqHeader) (src : MgmtSource) (x : Body) :
    Runs b (Machine.applyBody hd src x s).1 := by
  have hev := evaluate_works (u := true) s
  cases x with
  | identify => exact h
  | read i n => exact h.ruleRead i n
  | writePlain i n => exact h.ruleWritePlain _ i
  | writeLineGeometry g => exact h.groupsThen _ 4 fun h => h.refuseOr _ fun h => h.applyGeometry _ g
  | writeRejectSpan i v => exact h.refuseOr _ fun h => h.setSpan i v
  | writeStandConfiguration n => exact h.ruleWriteStandConfiguration n
  | writeStand k v => exact h.ruleWriteStand _ k v
  | writeGrade g v => exact h.ruleWriteGrade _ g v
  | writeZone n v => exact h.ruleWriteZone _ n v
  | writeProfile i v => exact h.refuseOr _ fun h => h.setProfile i v
  | writeStation i v => exact h.ruleWriteStation _ i v
  | loadPlain t f n => exact h.ruleLoadPlain _ t f n
  | loadRejectSpan f vs => exact h.ruleLoadSpan f vs
  | loadGrade f vs => exact h.ruleLoadGrade _ f vs
  | loadZone f vs => exact h.ruleLoadZone _ f vs
  | loadProfile f vs => exact h.ruleLoadProfile f vs
  | loadStation f vs => exact h.ruleLoadStation _ f vs
  | start => exact h.ruleStart
  | restart => exact h.ruleRestart
  | mode m => exact h.work ((Works.refl s).ruleMode hev m)
  | orderAppend n v => exact h.work ((Works.refl s).ruleOrderAppend hev n v)
  | orderAmend o v => exact h.work ((Works.refl s).ruleOrderAmend hev _ _ o v)
  | orderCancel o => exact h.work ((Works.refl s).ruleOrderCancel hev _ o)
  | orderFront o => exact h.work ((Works.refl s).ruleOrderFront hev o)
  | rollPrepare k a r => exact h.work ((Works.refl s).ruleRollPrepare hev k a r)
  | rollWithdraw k => exact h.work ((Works.refl s).ruleRollWithdraw hev k)
  | spliceNow k => exact h.work ((Works.refl s).ruleSpliceNow hev k)
  | spliceAbort k => exact h.work ((Works.refl s).ruleSpliceAbort hev k)
  | latchClear n ls => exact h.work ((Works.refl s).ruleLatchClear n ls)
  | clearStop c => exact h.ruleClearStop c
  | mark w l => exact h.work ((Works.refl s).ruleMark hev w l)
  | triggerSet t tag ht b' => exact h.ruleTriggerSet src t tag ht b'
  | triggerClear n => exact h.ruleTriggerClear src n

theorem Runs.takeForm {b s : State} (h : Runs b s) (hd : ReqHeader) (f : RequestForm) (src : MgmtSource) :
    Runs b (Machine.takeForm hd f src s).1 := by
  unfold Machine.takeForm
  repeat' first
    | exact h
    | exact h.applyBody hd src _
    | split

end Sys2Proof.Machine
end

