-- ==== Sys2Proof/Laws/Ring.lean ====
section
/-! SUPPORT. What the ring's operations do, said once: forwarding, observation, answers, intake and the transmit pin keep the laws
and the waiting commands; and when a request that reaches the Management Engine is answered. -/

namespace Sys2Proof.Machine

/-- Both what a command keeps: the waiting commands, and every law. -/
structure Kept (s t : State) : Prop where
  pending : t.pending = s.pending
  safe : Safe s → Safe t

theorem Runs.kept {s t : State} (h : Runs s t) : Kept s t := ⟨h.pending, h.safe⟩

theorem Kept.refl (s : State) : Kept s s := ⟨rfl, fun l => l⟩

theorem Kept.trans {a b c : State} (h : Kept a b) (k : Kept b c) : Kept a c :=
  ⟨k.pending.trans h.pending, fun l => k.safe (h.safe l)⟩

/-- A change of the ring's record that keeps its queues and its table. -/
theorem Kept.setRi {s : State} {r : RiState} (directives : r.directives = s.ri.directives) (reports : r.reports = s.ri.reports)
    (held : r.held = s.ri.held) (stations : r.stations = s.ri.stations)
    (forwarding : Safe s → r.forwarding.length ≤ Config.forwardingCapacity)
    (answers : Safe s → (r.answers.map (·.slot)).Nodup) : Kept s { s with ri := r } :=
  ⟨rfl, fun l => (l.work.same (t := { s with ri := r }) directives reports rfl rfl rfl rfl fun l => l).safe
    ⟨forwarding l, answers l, held ▸ l.ring.slots, fun hn => reports ▸ l.ring.held (held ▸ hn), l.ring.lineCount⟩
    ⟨stations ▸ l.sizes.stations, l.sizes.spans, l.sizes.grades, l.sizes.zones, l.sizes.trips, l.sizes.profiles, l.sizes.stands,
     l.sizes.triggers⟩⟩

theorem kept_forward (f : RingFrame) (s : State) : Kept s (forward f s) := by
  unfold forward
  split
  · next hf =>
    refine Kept.setRi rfl rfl rfl rfl (fun _ => ?_) fun l => l.ring.answers
    simp only [List.length_append, List.length_singleton]
    exact hf
  · exact Kept.setRi rfl rfl rfl rfl (fun l => l.ring.forwarding) fun l => l.ring.answers

theorem kept_repeatFrame (f : RingFrame) (s : State) : Kept s (repeatFrame f s) :=
  Kept.setRi rfl rfl rfl rfl (fun l => l.ring.forwarding) fun l => l.ring.answers

theorem kept_countReturned (s : State) : Kept s (countReturned s) :=
  Kept.setRi rfl rfl rfl rfl (fun l => l.ring.forwarding) fun l => l.ring.answers

theorem kept_countStray (s : State) : Kept s (countStray s) :=
  Kept.setRi rfl rfl rfl rfl (fun l => l.ring.forwarding) fun l => l.ring.answers

theorem kept_faultFrame (os : List Byte) (s : State) : Kept s (faultFrame os s) :=
  Kept.setRi rfl rfl rfl rfl (fun l => l.ring.forwarding) fun l => l.ring.answers

theorem runs_countMalformed (s : State) : Runs s (countMalformed s) :=
  (Runs.refl s).soft rfl rfl rfl rfl rfl rfl rfl rfl rfl rfl (fun l => l) (fun l => l) fun l =>
    ⟨l.stations, l.spans, l.grades, l.zones, l.trips, l.profiles, l.stands, l.triggers⟩

theorem runs_observe (origin : Byte) (c : Content) (s : State) : Runs s (observe origin c s) := by
  have h := Runs.refl s
  unfold observe
  split
  · unfold observeFrom
    cases c with
    | tally a d f => exact Runs.ite (h.takeTally _ _ _) h
    | reading a v => exact Runs.ite (h.takeReading _ _ _) h
    | state w o => exact Runs.ite (h.takeState _ _ _ _) h
    | cut a o f => exact Runs.ite (h.takeCut _ _ _) h
    | wrongLength k => exact Runs.ite (runs_countMalformed s) h
    | request p => exact h
    | other => exact h
    | foreign => exact h
  · exact h

/-- An answer enters a free slot (R181). -/
theorem kept_placeAnswer {a : Answer} {s : State} (h : slotFull s a.slot = false) : Kept s (placeAnswer a s) := by
  refine Kept.setRi rfl rfl rfl rfl (fun l => l.ring.forwarding) fun l => ?_
  simp only [List.map_append, List.map_cons, List.map_nil]
  rw [List.nodup_append]
  refine ⟨l.ring.answers, List.nodup_singleton _, fun x hx y hy => ?_⟩
  rw [List.mem_singleton] at hy
  subst hy
  rintro rfl
  obtain ⟨z, hz, he⟩ := List.mem_map.mp hx
  have := List.any_eq_false.mp h z hz
  simp [he] at this

/-- A request is discarded where its slot is full, and answered otherwise (R181, R187). -/
theorem kept_intake (origin code tag : Byte) {act : MgmtSource → State → State × Reply} {s : State}
    (hact : ∀ x, Runs s (act x s).1) : Kept s (intake origin code tag act s) := by
  unfold intake
  dsimp only
  split
  · have : Runs s (discardRequest s) := (Runs.refl s).soft rfl rfl rfl rfl rfl rfl rfl rfl rfl rfl (fun l => l) (fun l => l) fun l =>
      ⟨l.stations, l.spans, l.grades, l.zones, l.trips, l.profiles, l.stands, l.triggers⟩
    exact this.kept
  · next hf =>
    split
    · next hs =>
      exact kept_placeAnswer (by rw [hs] at hf; simpa [slotOf] using hf)
    · next x hs =>
      refine (hact x).kept.trans (kept_placeAnswer ?_)
      have : slotFull (act x s).1 (slotOf (requestSource s origin)) = slotFull s (slotOf (requestSource s origin)) := by
        unfold slotFull
        rw [(hact x).answers]
      simpa [this] using hf

theorem kept_takeRequest (h : ReqHeader) (f : RequestForm) (s : State) : Kept s (takeRequest h f s) :=
  kept_intake _ _ _ fun x => (Runs.refl s).takeForm h f x

theorem kept_takePayload (target origin seq : Byte) (p : List Byte) (s : State) : Kept s (takePayload target origin seq p s) := by
  unfold takePayload
  dsimp only
  split
  · exact kept_intake _ _ _ fun _ => Runs.refl s
  · exact kept_intake _ _ _ fun x => (Runs.refl s).takeForm _ _ x

theorem kept_takeFrame (f : RingFrame) (target origin seq : Byte) (c : Content) (s : State) :
    Kept s (takeFrame f target origin seq c s) := by
  unfold takeFrame
  split
  · exact kept_countReturned s
  · split
    · split
      · exact kept_takePayload _ _ _ _ s
      · exact kept_forward f s
      · exact kept_countStray s
    · exact (kept_forward f s).trans (runs_observe origin c _).kept

/-- A request that reaches the Management Engine is answered as its rule decides, in its source's slot (R170, R186 to R189). -/
theorem receiveRequest_of_reaches {h : ReqHeader} {src : MgmtSource} {s : State} (r : Reaches h src s) (f : RequestForm) :
    receiveRequest h f s =
      answered h src (BitVec.ofNat 8 (formCode f)) (takeForm h f src s).2 (takeForm h f src s).1 := by
  have h1 : (h.origin == ownOctet s) = false := by simpa using r.notOwn
  have h2 : slotFull s (slotOf (some src)) = false := r.room
  simp [receiveRequest, r.active, h1, r.mine, takeRequest, intake, r.source, h2, answered, placeAnswer]

/-- An observed frame is forwarded and handed on by its origin's role (R170, R171). -/
theorem receiveObserved_of_observes {h : FrameHeader} {i : Nat} {e : Station} {s : State} (o : Observes h i e s) (kind : Byte)
    (payload : List Byte) (c : Content) :
    receiveObserved h kind payload c s =
      observeFrom i e c (forward (.octets (frameOctets h.target h.origin kind h.sequence payload)) s) := by
  have h1 : (h.origin == ownOctet s) = false := by simpa using o.notOwn
  have h2 : (h.target == ownOctet s) = false := by simpa using o.notMine
  have h3 : ∀ f, stationAt (forward f s) h.origin.toNat = stationAt s h.origin.toNat := by
    intro f
    unfold forward
    split <;> rfl
  simp [receiveObserved, o.active, takeFrame, h1, h2, observe, h3, o.entry]

/-- The transmit pin takes a report; the held reports move up (R178, R182). -/
theorem kept_transmitReport {r : Report} {t : List Report} {s : State} (h : s.ri.reports = r :: t) :
    Kept s (transmitReport r t s) := by
  have move : ∀ l : Safe s, SafeMoving { (originate (.report (reportTarget s) s.ri.ownAddress s.ri.originSeq r) s) with
      ri := { (originate (.report (reportTarget s) s.ri.ownAddress s.ri.originSeq r) s).ri with reports := t } } := fun l =>
    { work :=
        ⟨⟨l.line.directives, by
          have := l.line.reports
          rw [h] at this
          exact le_trans (Nat.le_succ _) this, l.line.orders, l.line.mapOrder, l.line.uncertainty, l.line.carry, l.line.noMarks⟩,
          l.work.stands, l.work.joints.congr rfl rfl, l.orders.of_feeds rfl, l.rolls, l.latches⟩
      forwarding := l.ring.forwarding
      answers := l.ring.answers
      slots := l.ring.slots
      lineCount := l.ring.lineCount
      sizes := ⟨l.sizes.stations, l.sizes.spans, l.sizes.grades, l.sizes.zones, l.sizes.trips, l.sizes.profiles,
        l.sizes.stands, l.sizes.triggers⟩ }
  refine ⟨?_, fun l => (moveHeld_safe _ (le_refl _) (move l)).1⟩
  have hp : ∀ f (s : State), (moveHeld f s).pending = s.pending := by
    intro f
    induction f with
    | zero => intro s; rfl
    | succ f ih =>
      intro s
      unfold moveHeld
      split
      · rfl
      · split
        · rw [ih]
          exact (works_report (q := .quiet) _ _).frame.pending
        · rfl
  exact hp _ _

end Sys2Proof.Machine
end

