-- ==== Sys2Proof/Tests/Slice0.lean ====
section
/-! SUPPORT. The model's own tests: ill-formed commands that WellFormed refuses, the worked values of the manual, and for each
statement with hypotheses a state and operands that meet them, clause by clause. -/

namespace Sys2Proof.Tests

open Sys2Proof.Machine

/-! ## States and headers the tests use -/

def testStation (address : Nat) (role : Role) : Option Station := some ⟨address, role, 0, 0, 0⟩

/-- The part's own address is 1 in every test state. -/
def testStations : List (Option Station) :=
  [testStation 2 .supervisor, testStation 3 .panel, testStation 4 .encoder, testStation 5 .drive, testStation 6 .zone,
   testStation 7 .cutoff, testStation 8 .gate, testStation 9 .stacker, testStation 10 .knifeA, testStation 11 .knifeB,
   testStation 12 (.stand 1), testStation 13 (.stand 2), testStation 14 (.stand 3)] ++ List.replicate 19 none

def testRoll (i : Nat) : Roll := ⟨i, 7, 2000, 100000, 100000⟩

def testStand (i : Nat) : Stand :=
  { newStand with effOffset := 1000, active := some (testRoll i), address := some (11 + i) }

def testGeometry : Geometry :=
  { powerOnGeometry with knifeAOffset := 30000, knifeBOffset := 31000, cutoffOffset := 40000, gateOffset := 42000 }

def testZone : Zone := { powerOnZone with placed := true, offset := 5000, station := some 6, channel := 1 }

def testGrade : Grade := ⟨List.replicate 5 (some 7), List.replicate 16 none⟩

/-- A configured part in CONFIGURING that START takes. -/
def configured : State :=
  { State.reset with
    ri := { State.reset.ri with stations := testStations }
    pt := { State.reset.pt with geometry := testGeometry }
    sc := ⟨[testStand 1, testStand 2, testStand 3]⟩
    zr := { State.reset.zr with
      grades := some testGrade :: List.replicate 31 none, zones := testZone :: List.replicate 15 powerOnZone } }

def running : State :=
  { configured with me := { configured.me with running := true }, pt := { configured.pt with lastSeq := some 5 } }

def testLayout : Layout := ⟨2000, [⟨992, []⟩, ⟨992, []⟩], 8, 8⟩

def testFields : OrderFields := ⟨100, 10, testLayout, 1000, 0, 50, .named .accept, false⟩

def testOrder (number : Nat) (feed : FeedState) : Order :=
  { id := ⟨number, 0⟩, parent := none, target := 100, overrun := 10, layout := testLayout, cutLength := 1000, grade := 0,
    stackHeight := 50, policy := .accept, holdAfter := false, feed := feed, cutState := .waiting, startW := none,
    planned := none, endW := none, committedBefore := false, cancelPending := false, released := 0, cuts := 0, good := 0,
    rejects := [] }

/-- The order queue with one order in this feed state, after a QUEUED one. -/
def withOrder (feed : FeedState) : State :=
  { running with os := { running.os with orders := [testOrder 1 .queued, testOrder 2 feed] } }

/-- Stand 1's splice in this state. -/
def withSplice (f : Splice → Splice) : State :=
  { running with sc := ⟨[{ testStand 1 with splice := f idleSplice }, testStand 2, testStand 3]⟩ }

/-- Stand 1's standby arm holding this roll. -/
def withStandby (arm : StandbyArm) (f : Splice → Splice) : State :=
  { running with sc := ⟨[{ testStand 1 with standby := arm, splice := f idleSplice }, testStand 2, testStand 3]⟩ }

def withHolders (slow : List SlowHolder) (stop : List StopCause) : State :=
  { running with pt := { running.pt with slow := slow, stop := stop } }

def withTrip (t : ZoneTrip) : State :=
  { running with ts := { running.ts with zones := t :: List.replicate 15 clearTrip } }

def withMarks (ms : List Mark) : State := { running with sm := { running.sm with marks := ms } }

def withTrigger (e : TriggerEntry) : State :=
  { running with me := { running.me with triggers := [none, some e] ++ List.replicate 6 none } }

def fromSupervisor : ReqHeader := ⟨1, 2, 0, 9, 0, 0⟩
def fromPanel : ReqHeader := ⟨1, 3, 0, 9, 0, 0⟩
def forced : ReqHeader := ⟨1, 2, 0, 9, 1, 0⟩
def withMask (mask : Byte) : ReqHeader := ⟨1, 2, 0, 9, 0, mask⟩

/-! ## WellFormed refuses ill-formed commands -/

theorem test_illformed_target : (Instr.tally ⟨64, 4, 0⟩ 0 0).wellFormed = false := by decide
theorem test_illformed_origin : (Instr.cut ⟨0, 200, 0⟩ 0 0).wellFormed = false := by decide
theorem test_illformed_request_target : (Instr.start ⟨64, 2, 0, 0, 0, 0⟩ (.fields ())).wellFormed = false := by decide
theorem test_illformed_request_origin : (Instr.restart ⟨1, 64, 0, 0, 0, 0⟩ (.fields ())).wellFormed = false := by decide
theorem test_illformed_number : (Instr.orderFront fromSupervisor (.fields ⟨2 ^ 32, 0⟩)).wellFormed = false := by decide
theorem test_illformed_makeUp : (Instr.orderCancel fromSupervisor (.fields ⟨1, 16⟩)).wellFormed = false := by decide
theorem test_illformed_append : (Instr.orderAppend fromSupervisor (.fields (2 ^ 32, testFields))).wellFormed = false := by decide
theorem test_illformed_amend : (Instr.orderAmend fromSupervisor (.fields (⟨1, 16⟩, testFields))).wellFormed = false := by decide
theorem test_illformed_mark_high : (Instr.mark fromSupervisor (.fields (2 ^ 47, 1))).wellFormed = false := by decide
theorem test_illformed_mark_low : (Instr.mark fromSupervisor (.fields (-(2 ^ 47) - 1, 1))).wellFormed = false := by decide
theorem test_illformed_papers :
    (Instr.writeGrade fromSupervisor (.fields (0, some ⟨[], List.replicate 16 none⟩))).wellFormed = false := by decide
theorem test_illformed_setpoints :
    (Instr.writeGrade fromSupervisor (.fields (0, some ⟨List.replicate 5 none, [none]⟩))).wellFormed = false := by decide
theorem test_illformed_setpoint_width :
    (Instr.loadGrade fromSupervisor (.fields (0, [some ⟨List.replicate 5 none, List.replicate 16 (some 32768)⟩]))).wellFormed
      = false := by decide
theorem test_illformed_setpoint_low :
    (Instr.loadGrade fromSupervisor (.fields (0, [some ⟨List.replicate 5 none, List.replicate 16 (some (-32769))⟩]))).wellFormed
      = false := by decide
theorem test_illformed_role :
    (Instr.writeStation fromSupervisor (.fields (0, .fields 9 (.named (.stand 6)) 0))).wellFormed = false := by decide
theorem test_illformed_role_low :
    (Instr.loadStation fromSupervisor (.fields (0, [.fields 9 (.named (.stand 0)) 0]))).wellFormed = false := by decide
theorem test_illformed_lineAt :
    (Instr.triggerSet fromSupervisor (.fields (.lineAt (2 ^ 48), 0, 0, .spliceNow 1))).wellFormed = false := by decide
theorem test_illformed_feedStart :
    (Instr.triggerSet fromSupervisor (.fields (.feedStart ⟨2 ^ 32, 0⟩, 0, 0, .spliceNow 1))).wellFormed = false := by decide
theorem test_illformed_orderClosed :
    (Instr.triggerSet fromSupervisor (.fields (.orderClosed ⟨1, 16⟩, 0, 0, .spliceNow 1))).wellFormed = false := by decide
theorem test_illformed_held_mark :
    (Instr.triggerSet fromSupervisor (.fields (.lineAt 1, 0, 0, .mark (2 ^ 47) 1))).wellFormed = false := by decide
theorem test_illformed_held_front :
    (Instr.triggerSet fromSupervisor (.fields (.lineAt 1, 0, 0, .orderFront ⟨1, 16⟩))).wellFormed = false := by decide
theorem test_illformed_held_code :
    (Instr.triggerSet fromSupervisor (.fields (.lineAt 1, 0, 0, .other 14))).wellFormed = false := by decide
theorem test_illformed_request_body :
    (Instr.receiveFrame (.request fromSupervisor (.body (.mark (2 ^ 47) 1)))).wellFormed = false := by decide
theorem test_illformed_code_high :
    (Instr.receiveFrame (.request fromSupervisor (.wrongSize 21))).wellFormed = false := by decide
theorem test_illformed_code_low :
    (Instr.receiveFrame (.request fromSupervisor (.wrongSize 0))).wellFormed = false := by decide
theorem test_illformed_unknown_known : (Instr.unknownRequest ⟨1, 2, 0⟩ [20, 0, 0, 0]).wellFormed = false := by decide
set_option maxRecDepth 4000 in
theorem test_illformed_unknown_long :
    (Instr.unknownRequest ⟨1, 2, 0⟩ (List.replicate 241 0)).wellFormed = false := by decide
theorem test_illformed_stand_low : (Instr.accelTimeout 0).wellFormed = false := by decide
theorem test_illformed_stand_high : (Instr.pasteTimeout 6).wellFormed = false := by decide
theorem test_illformed_zone : (Instr.standbyTimeout 16).wellFormed = false := by decide
theorem test_wellformed_commands :
    ([.transmit, .accelTimeout 5, .standbyTimeout 15, .mark fromSupervisor (.fields (-(2 ^ 47), 0)),
      .unknownRequest ⟨1, 2, 0⟩ [21, 0, 0, 0], .unknownRequest ⟨1, 2, 0⟩ [1, 0, 0],
      .orderCancel fromSupervisor (.fields ⟨2 ^ 32 - 1, 15⟩)] : List Instr).all Instr.wellFormed = true := by decide

/-! ## The ring -/

/-- The check of an empty TALLY header by hand: 63 + 4 + 1 + 7 + 0 = 75, inverted 65460, FFB4. -/
theorem test_check_by_hand : checkOf [63, 4, 1, 7, 0] = (0xFF, 0xB4) := by decide
theorem test_check_passes : passesCheck (frameOctets 63 4 1 7 [0, 100, 0]) = true := by decide
theorem test_check_fails_on_a_changed_octet : passesCheck [63, 4, 1, 7, 0, 0xFF, 0xB5] = false := by decide
theorem test_check_needs_its_length : passesCheck [63, 4, 1, 7, 1, 0xFF, 0xB3] = false := by decide
theorem test_meets_passive : (resetWith 0 []).passive = true ∧ (resetWith 63 []).passive = true := by decide
theorem test_meets_faulted_frame : running.passive = false ∧ passesCheck [] = false := by decide
theorem test_meets_own_frame :
    passesCheck (frameOctets 9 1 1 0 []) = true ∧ (frameOctets 9 1 1 0 []).getD 1 0 = ownOctet running := by decide
theorem test_meets_request_frame :
    let os := frameOctets 1 2 6 0 [1, 9, 0, 0]
    passesCheck os = true ∧ os.getD 1 0 ≠ ownOctet running ∧ os.getD 0 0 = ownOctet running ∧
      contentOf (os.getD 2 0) (os.getD 3 0) ((os.drop 5).take (lengthOctet os)) = .request [1, 9, 0, 0] := by decide
theorem test_meets_stray_frame :
    let os := frameOctets 1 4 1 0 [0, 100, 0]
    passesCheck os = true ∧ os.getD 0 0 = ownOctet running ∧
      contentOf (os.getD 2 0) (os.getD 3 0) ((os.drop 5).take (lengthOctet os)) = .tally 0 100 0 := by decide
theorem test_meets_foreign_frame :
    [frameOctets 1 4 0 0 [], frameOctets 1 4 9 0 []].all (fun os =>
      passesCheck os && os.getD 0 0 == ownOctet running && os.getD 1 0 != ownOctet running &&
        (os.getD 2 0 == 0 || decide (8 < (os.getD 2 0).toNat))) = true ∧
      ([1, 2, 3] : List Byte).length ≤ 240 := by decide
theorem test_meets_forwarded_frame :
    let os := frameOctets 63 4 1 0 [0, 100, 0]
    passesCheck os = true ∧ os.getD 0 0 ≠ ownOctet running ∧ os.getD 1 0 ≠ ownOctet running := by decide
/-- A DIRECTIVE of another node for another node, and a frame of kind code 0. -/
theorem test_meets_other_kind :
    [frameOctets 63 4 5 0 [9], frameOctets 63 4 0 0 []].all (fun os =>
      passesCheck os && os.getD 0 0 != ownOctet running && os.getD 1 0 != ownOctet running &&
        (os.getD 2 0 == 0 || decide (4 < (os.getD 2 0).toNat))) = true ∧ stationAt running 4 = some (2, ⟨4, .encoder, 0, 0, 0⟩) := by
  decide
theorem test_meets_forwarding_room : running.ri.forwarding.length < 2 := by decide
theorem test_meets_forwarding_full :
    2 ≤ { running.ri with forwarding := [.octets [], .octets []] }.forwarding.length := by decide
/-- Each of the four kinds with a wrong length from a role that sends it, an ENCODER's CUT, and an unknown origin. -/
theorem test_meets_wrong_length :
    [(frameOctets 63 4 1 0 [0, 100], 4, 1), (frameOctets 63 6 2 0 [0, 0, 0, 0], 6, 2), (frameOctets 63 7 3 0 [], 7, 3),
      (frameOctets 63 7 4 0 [0], 7, 4), (frameOctets 63 4 4 0 [0], 4, 4), (frameOctets 63 40 1 0 [0], 40, 1)].all (fun x =>
        passesCheck x.1 && (x.1.getD 1 0).toNat == x.2.1 && (x.1.getD 2 0).toNat == x.2.2 && x.1.getD 0 0 != ownOctet running &&
          x.1.getD 1 0 != ownOctet running && lengthOctet x.1 != if x.2.2 = 3 then 4 else 3) = true ∧
      ([4, 6, 7].map fun a => (stationAt running a).map (·.2.role)) = [some .encoder, some .zone, some .cutoff] ∧
      stationAt running 40 = none := by decide
theorem test_meets_transmit_forwarding :
    { running.ri with forwarding := [.octets []] }.forwarding = [.octets []] ∧ running.passive = false := by decide
theorem test_meets_transmit_directive :
    running.ri.forwarding = [] ∧ { running.ri with directives := [⟨5, .abort⟩] }.directives = [⟨5, .abort⟩] := by decide
theorem test_meets_transmit_answer :
    let s := answered fromSupervisor .supervisor 1 (.accepted .none) running
    s.ri.forwarding = [] ∧ s.ri.directives = [] ∧ s.ri.answers = [⟨.supervisor, 2, 1, 9, .accepted .none⟩] := by decide
theorem test_meets_transmit_report :
    let s := report (.line [] [] none none) running
    s.ri.forwarding = [] ∧ s.ri.directives = [] ∧ s.ri.answers = [] ∧ s.ri.reports = [⟨0, 0, .line [] [] none none⟩] := by decide
theorem test_meets_transmit_idle :
    running.ri.forwarding = [] ∧ running.ri.directives = [] ∧ running.ri.answers = [] ∧ running.ri.reports = [] := by decide
theorem test_meets_role_addresses :
    running.ri.stations = [] ++ running.ri.stations.head?.join :: running.ri.stations.tail ∧
      (running.ri.stations.head?.join).map (·.role) = some .supervisor ∧ reportTarget running = 2 ∧
      (State.reset.ri.stations.all fun x => x.isNone) = true ∧ reportTarget State.reset = 63 ∧
      roleAddress State.reset .drive = 0 := by decide
theorem test_meets_report_queue :
    running.ri.reports.length < 16 ∧
      16 ≤ { running.ri with reports := List.replicate 16 ⟨0, 0, .line [] [] none none⟩ }.reports.length := by decide

/-! ## Requests reach their rule -/

theorem test_meets_reaches_supervisor : Reaches fromSupervisor .supervisor running := ⟨by decide, by decide, by decide, by decide, by decide⟩
theorem test_meets_reaches_panel : Reaches fromPanel .panel running := ⟨by decide, by decide, by decide, by decide, by decide⟩
theorem test_meets_reaches_configuring : Reaches fromSupervisor .supervisor configured :=
  ⟨by decide, by decide, by decide, by decide, by decide⟩
theorem test_meets_reaches_forced : Reaches forced .supervisor running := ⟨by decide, by decide, by decide, by decide, by decide⟩
theorem test_meets_reaches_masked : Reaches (withMask 5) .supervisor running := ⟨by decide, by decide, by decide, by decide, by decide⟩
/-- A request that reaches its rule in `running` does so in any state with the same ring. -/
theorem test_reaches_with_ring {h : ReqHeader} {src : MgmtSource} {s : State} (r : Reaches h src running)
    (e : s.ri = running.ri) : Reaches h src s := by
  refine ⟨?_, ?_, ?_, ?_, ?_⟩
  · simpa [State.passive, e] using r.active
  · simpa [ownOctet, e] using r.notOwn
  · simpa [ownOctet, e] using r.mine
  · simpa [requestSource, isStationOf, stationIn, e] using r.source
  · simpa [e] using r.room
theorem test_meets_slot_full :
    slotFull (answered fromSupervisor .supervisor 1 (.accepted .none) running) (slotOf (requestSource running 2)) = true := by decide
theorem test_meets_no_source : requestSource running 40 = none ∧ slotFull running .refusal = false := by decide
theorem test_meets_sources :
    stationIn State.reset .supervisor = none ∧ (stationIn running .supervisor).map (·.address) = some 2 ∧
      (stationIn running .panel).map (·.address) = some 3 := by decide
/-- START as octets: its header alone, and one octet too long. -/
theorem test_start_in_octets :
    readBody 5 0 [] = .body .start ∧ readBody 5 0 [0] = .wrongSize 5 ∧ readBody 7 0 [] = .wrongSize 7 ∧ (7 : Byte) ∉ [1, 5, 6] := by decide
theorem test_meets_unknown_request :
    running.passive = false ∧ (2 : Byte) ≠ ownOctet running ∧ (1 : Byte) = ownOctet running ∧
      requestSource running 2 = some .supervisor ∧ slotFull running (slotOf (some .supervisor)) = false ∧
      ([1, 2, 3] : List Byte).length < 4 ∧ 4 ≤ ([21, 0, 0, 0] : List Byte).length ∧ 20 < (21 : Byte).toNat := by decide
theorem test_meets_panel_code : Body.code .start ∈ [5, 6, 8, 9, 10, 11] ∧ Body.code .restart ∈ [5, 6, 8, 9, 10, 11] := by decide
theorem test_meets_line_code : (Body.mode (.named .hold)).code = 7 ∧ (Body.triggerClear (.index 0)).code = 20 := by decide
theorem test_meets_observes_encoder : Observes ⟨63, 4, 6⟩ 2 ⟨4, .encoder, 0, 0, 0⟩ running :=
  ⟨by decide, by decide, by decide, by decide⟩
theorem test_meets_observes_zone : Observes ⟨63, 6, 6⟩ 4 ⟨6, .zone, 0, 0, 0⟩ running := ⟨by decide, by decide, by decide, by decide⟩
theorem test_meets_observes_cutoff : Observes ⟨63, 7, 6⟩ 5 ⟨7, .cutoff, 0, 0, 0⟩ running := ⟨by decide, by decide, by decide, by decide⟩
def watched : State :=
  { running with ri := { running.ri with stations := running.ri.stations.set 2 (some ⟨4, .encoder, 1, 0, 0⟩) } }
theorem test_meets_observes_watched : Observes ⟨63, 4, 6⟩ 2 ⟨4, .encoder, 1, 0, 0⟩ watched := ⟨by decide, by decide, by decide, by decide⟩
def heldChange : HeldReport := ⟨2, ⟨4, .encoder, 0, 1, 1, false, 0⟩⟩
theorem test_meets_change :
    let full := { running.ri with reports := List.replicate 16 ⟨0, 0, .line [] [] none none⟩ }
    let merged := { full with held := [] ++ [heldChange] ++ [] ++ [heldChange] ++ [] }
    ((0 : Word16) ^^^ 1) &&& 1 ≠ 0 ∧ ((0 : Word16) ^^^ 2) &&& 1 = 0 ∧ (watched.ri.held.filter fun x => x.entry == 2).length = 0 ∧
      watched.ri.reports.length < 16 ∧ ¬(full.reports.length < 16) ∧ (full.held.filter fun x => x.entry == 2).length < 2 ∧
      merged.held = [heldChange, heldChange] ∧ heldChange.entry = 2 := by decide
theorem test_meets_moved_report :
    let some1 := { running.ri with held := [heldChange] }
    running.ri.held = [] ∧ some1.held = heldChange :: [] ∧ some1.reports.length < 16 ∧
      16 ≤ { some1 with reports := List.replicate 16 ⟨0, 0, .line [] [] none none⟩ }.reports.length := by decide

/-! ## Line position and the drive request set -/

theorem test_meets_tally :
    running.me.running = true ∧ running.pt.lastSeq ≠ some 6 ∧ running.pt.lastSeq = some 5 ∧ configured.me.running = false := by decide
theorem test_gap_counts_the_missing : ((9 : Byte) - 5).toNat - 1 = 3 ∧ ((1 : Byte) - 254).toNat - 1 = 2 := by decide
theorem test_meets_uncertainty_bound :
    (⟨0, 0, .joint 1, 65535⟩ : Mark).uncertainty ≤ 65535 := by decide
theorem test_meets_slow_holders :
    running.pt.slow.find? (fun h => h.stand == 1) = none ∧
      (withHolders [⟨1, 200⟩] []).pt.slow.find? (fun h => h.stand == 1) = some ⟨1, 200⟩ ∧
      (∃ x ∈ (withHolders [⟨1, 200⟩] []).pt.slow, x.stand = 1) ∧ (∀ x ∈ running.pt.slow, x.stand ≠ 1) := by decide
theorem test_held_limit_is_the_least : heldLimit [⟨1, 200⟩, ⟨3, 120⟩, ⟨2, 150⟩] = some 120 := by decide
theorem test_meets_stop_claim :
    StopCause.webOut ∉ running.pt.stop ∧ StopCause.webOut ∈ (withHolders [] [.webOut]).pt.stop ∧ running.me.running = true ∧
      configured.me.running = false ∧ StopCause.webOut ∉ configured.pt.stop := by decide
theorem test_meets_directive_laws : DirectiveLaws running.ri.directives :=
  ⟨by decide, by decide, fun z => by simp [running, configured, State.reset, resetWith, resetRi]⟩
def cutoutLatched : ZoneTrip := { clearTrip with latched := ⟨false, false, true⟩ }
theorem test_meets_clear_stop :
    StopCause.tripCutout ∈ (withHolders [] [.tripCutout]).pt.stop ∧
      (∀ t ∈ (withHolders [] [.tripCutout]).ts.zones, t.latched.cutout = false) ∧
      (∃ t ∈ (withTrip cutoutLatched).ts.zones, t.latched.cutout = true) := by decide

/-! ## The segment map -/

def testBoundary (id : MarkId) (w : WebPos) : Mark := ⟨id, w, .boundary none ⟨1, 0⟩ [], 0⟩

/-- R23: a cut made at w itself leaves the boundary overlapping neither of the two sheets that meet there. -/
theorem test_cut_at_a_boundary :
    overlaps running (testBoundary 0 1000) 0 1000 = false ∧ overlaps running (testBoundary 0 1000) 1000 2000 = false ∧
      overlaps running (testBoundary 0 1000) 999 1001 = true := by decide
theorem test_meets_boundary_clause :
    (0 : WebPos) < 1 ∧ (testBoundary 0 1000).kind = .boundary none ⟨1, 0⟩ [] ∧
      running.sm.spans.getD (spanIndex (testBoundary 0 1000).kind) ⟨0, 0⟩ = ⟨0, 0⟩ ∧ (testBoundary 0 1000).uncertainty = 0 := by decide
def transition : Mark := ⟨3, 1000, .window .transition (.zone 0) (.closed 500), 0⟩
theorem test_meets_shortening :
    markOf (withMarks [transition]) 3 = some transition ∧ transition.kind = .window .transition (.zone 0) (.closed 500) ∧
      markOf running 3 = none := by decide
def operatorClaim (w : WebPos) : Claim := ⟨.window .operator .operator (.closed 100), w, .exact 0⟩
/-- The ids 0 and 1 are held: the counter passes both, and gives 2. -/
theorem test_meets_mark_id_walk :
    let s := withMarks [{ transition with id := 0 }, { transition with id := 1 }]
    s.sm.nextId = 0 ∧ (admitMark (operatorClaim 0) 0 s).2.id = 2 ∧ 1 < ((admitMark (operatorClaim 0) 0 s).2.id - s.sm.nextId).toNat := by
  decide
theorem test_meets_tally_gap :
    running.pt.lastSeq = some 5 ∧ (6 : Byte) = 5 + 1 ∧ ((9 : Byte) - 5).toNat = 3 + 1 ∧ { running.pt with lastSeq := none }.lastSeq = none ∧
      (withMarks [transition]).sm.marks ≠ [] := by decide
def operatorMark (x : Extent) : Mark := ⟨4, 1000, .window .operator .operator x, 0⟩
theorem test_meets_insertion :
    mergeCandidate (withMarks [operatorMark (.closed 500)]) .operator .operator 1200 = some (operatorMark (.closed 500)) ∧
      mergeCandidate running .operator .operator 1200 = none ∧ (operatorMark (.closed 500)).kind = .window .operator .operator (.closed 500) ∧
      refusedAtTier (withMarks (List.replicate 108 transition)) (operatorClaim 0).kind = true ∧
      refusedAtTier running (operatorClaim 0).kind = false ∧ running.sm.marks.Pairwise (fun x y => x.w ≤ y.w) := by decide
theorem test_meets_close_claim :
    let mine := fun (c : WindowCause) (src : Source) => c == .lateSet && src == .knife .a
    let late := fun (x : Extent) => (⟨5, 0, .window .lateSet (.knife .a) x, 0⟩ : Mark)
    markOf (withMarks [late .openEnded]) 5 = some (late .openEnded) ∧ markOf (withMarks [late (.closed 9)]) 5 = some (late (.closed 9)) ∧
      mine .lateSet (.knife .a) = true ∧ mine .transition (.zone 0) = false := by decide
theorem test_meets_removal :
    markOf (withMarks [testBoundary 6 1000]) 6 = some (testBoundary 6 1000) ∧ markOf running 6 = none ∧
      (⟨7, 0, .joint 1, 0⟩ : Mark).kind = .joint 1 ∧ Threshold.release ∉ ([] : List Threshold) ∧
      Threshold.release ∈ [Threshold.release] := by decide
/-- The ends of a signed 48-bit web position, and the values past them. -/
theorem test_meets_web_range :
    -(2 ^ 47) ≤ -(2 ^ 47 : Int) ∧ (2 ^ 47 - 1 : Int) < 2 ^ 47 ∧ (-(2 ^ 47) - 1 : Int) < -(2 ^ 47) ∧ (2 ^ 47 : Int) ≤ 2 ^ 47 := by
  decide
theorem test_meets_points :
    zoneOf running 0 = some testZone ∧ standOf running 1 = some (testStand 1) ∧ running.ts.zones[15]? = some clearTrip := by decide
theorem test_meets_admission :
    running.sm.marks.length < 65536 ∧ (∀ m ∈ running.sm.marks, m.id ≠ running.sm.nextId) ∧ isDefect .operator = true ∧
      isDefect .lateSet = false := by decide
theorem test_meets_retirement :
    hasPassed { withMarks [transition] with pt := { running.pt with lineCount := 50000 } } transition = true := by decide
theorem test_meets_commit_boundary : geometryFault running = none ∧ lineCount running + running.pt.geometry.dPre < 20001 := by decide

/-! ## Orders -/

theorem test_meets_good_bound :
    classify (some (testOrder 1 .feeding)) 1000 0 1000 running = (running, none) ∧ 0 < (testOrder 1 .feeding).layout.lanes.length ∧
      (testOrder 1 .feeding).layout.lanes.length ∣ (testOrder 1 .feeding).good := by decide
theorem test_meets_count_law :
    (testOrder 1 .feeding).layout.lanes.length * (testOrder 1 .feeding).cuts =
      (testOrder 1 .feeding).good + ((testOrder 1 .feeding).rejects.map (·.sheets)).sum := by decide
/-- A COMMITTED order with its NEXT order, and the boundary between them. -/
def committed : State :=
  { running with os := { running.os with orders := [testOrder 1 .committed, testOrder 2 .next] } }
theorem test_meets_release :
    currentOrder committed = some (testOrder 1 .committed) ∧ nextOrder committed = some (testOrder 2 .next) ∧
      isRelease committed (some ⟨1, 0⟩) ⟨2, 0⟩ = true ∧ isRelease running none ⟨1, 0⟩ = false ∧
      standOf committed 1 = some (testStand 1) := by decide
theorem test_meets_released_length :
    let o := { testOrder 2 .feeding with startW := some 0 }
    let s := { running with os := { running.os with orders := [testOrder 1 .queued, o] } }
    (s.os.orders.find? fun o => o.feed == .feeding || o.feed == .committed) = some o ∧
      (∀ x ∈ s.os.orders, x.id = o.id → x.startW = some 0) ∧ currentOrder running = none := by decide
theorem test_meets_append :
    running.os.orders.length < 64 ∧ orderOf running ⟨1, 0⟩ = none ∧ orderCheck running testFields = none ∧
      testFields.policy = .named .accept := by decide
theorem test_meets_append_duplicate : (orderOf (withOrder .next) ⟨1, 0⟩).isSome = true ∧ orderOf (withOrder .next) ⟨3, 0⟩ = none := by decide
theorem test_meets_append_invalid : orderCheck running { testFields with target := 0 } = some .targetRange := by decide
theorem test_meets_append_full : 64 ≤ { running.os with orders := List.replicate 64 (testOrder 1 .queued) }.orders.length := by decide
theorem test_meets_amend :
    orderOf (withOrder .feeding) ⟨2, 0⟩ = some (testOrder 2 .feeding) ∧ (withMask 1).mask ≠ 0 ∧ (withMask 1).mask.toNat < 64 ∧
      amendRefusal .feeding false 1 = none ∧ amendCheck (withOrder .feeding) (testOrder 2 .feeding) 1 testFields = none ∧
      orderOf (withOrder .feeding) ⟨9, 0⟩ = none := by decide
theorem test_meets_amend_refused :
    64 ≤ (withMask 64).mask.toNat ∧ amendRefusal .feeding false 2 = some .inUse ∧ (withMask 2).mask.toNat < 64 ∧
      amendCheck (withOrder .feeding) (testOrder 2 .feeding) 1 { testFields with target := 0 } = some .targetRange ∧
      amendRefusal .queued false 2 = none ∧
      amendCheck (withOrder .queued) (testOrder 2 .queued) 2 { testFields with layout := { testLayout with leftTrim := 9 } } =
        some .laneSum := by decide
/-- R62: of two boundaries between the same orders, a withdrawal names the one at the end w. -/
theorem test_withdrawal_names_the_boundary_at_the_end :
    let between := fun (id : MarkId) (w : WebPos) => (⟨id, w, .boundary (some ⟨1, 0⟩) ⟨2, 0⟩ [], 0⟩ : Mark)
    boundaryBetween (withMarks [between 4 1000, between 9 7000]) ⟨1, 0⟩ ⟨2, 0⟩ 7000 = some 9 := by decide
theorem test_meets_cancel :
    [FeedState.queued, .next, .feeding, .committed, .fed].all
      (fun f => decide (orderOf (withOrder f) ⟨2, 0⟩ = some (testOrder 2 f))) = true ∧ forced.force = true ∧
      fromSupervisor.force = false := by decide
theorem test_orphans_name_the_order :
    ((orphanEntries ⟨1, 0⟩ (withTrigger ⟨.feedStart ⟨1, 0⟩, 0, .spliceNow 1, .supervisor, 7⟩)).me.triggers =
      List.replicate 8 none) := by decide

/-! ## Knives, cuts, the gate and the stacker -/

def withKnife (x : KnifeState) : State := { running with kc := { running.kc with a := { idleKnife with state := x } } }
theorem test_meets_knife_states :
    (knifeOf (withKnife .setting) .a).state = .setting ∧ (knifeOf (withKnife .ready) .a).state = .ready ∧
      (knifeOf running .a).state ≠ .ready ∧ (knifeOf (withKnife .engaged) .a).state = .engaged ∧
      (knifeOf (withKnife .faulted) .a).state = .faulted ∧ (knifeOf running .a).state = .idle := by decide
/-- R71: the LATE_SET window a SETTING station still holds is closed before another is opened at its approach. -/
theorem test_one_late_window_at_a_time :
    let held : Mark := ⟨5, -30500, .window .lateSet (.knife .a) .openEnded, 0⟩
    let s := modKnife .a (fun x => { x with
      state := .setting, served := [⟨2, 0⟩], engage := some ⟨true, none, -30500⟩, window := some (.late 5) }) (withMarks [held])
    let t := knifeApproach evaluate .a ⟨7, 5000⟩ (some ⟨1, 0⟩) ⟨2, 0⟩ s
    (t.sm.marks.filter Mark.isOpen).map (fun m => (m.id, m.w)) = [(0, 5000)] ∧ (knifeOf t .a).window = some (.late 0) ∧
      (knifeOf t .a).engage = some ⟨true, some 7, 5000⟩ := by decide
/-- A current order, order 1, and station A or B with this record. -/
def withRecord (k : KnifeId) (r : KnifeRecord) : State :=
  modKnife k (fun _ => r) { running with os := { running.os with orders := [testOrder 1 .feeding] } }
theorem test_meets_knife_query :
    let lasts := { idleKnife with served := [⟨1, 0⟩] }
    currentOrder (withRecord .b lasts) = some (testOrder 1 .feeding) ∧
      (knifeOf (withRecord .a lasts) .a).served.getLast? = some ⟨1, 0⟩ ∧ (knifeOf (withRecord .b lasts) .b).served.getLast? = some ⟨1, 0⟩ ∧
      (withRecord .b lasts).kc.a.served.getLast? ≠ some ⟨1, 0⟩ ∧ currentOrder running = none ∧
      (knifeOf (withRecord .a idleKnife) .a).served.getLast? ≠ some ⟨1, 0⟩ := by decide
/-- R75: a named station that has faulted is assigned all the same, in FAULTED. -/
theorem test_faulted_station_is_assigned :
    let s := knifeAssign (.station .a) none ⟨2, 0⟩ testLayout (withRecord .a { idleKnife with state := .faulted })
    (knifeOf s .a).state = .faulted ∧ (knifeOf s .a).served = [⟨2, 0⟩] ∧ (knifeOf s .a).held = none ∧ s.ri.directives = [] := by decide
theorem test_meets_knife_relations :
    (relation { idleKnife with served := [⟨1, 0⟩, ⟨2, 0⟩] } (some ⟨1, 0⟩) ⟨2, 0⟩, relation { idleKnife with served := [⟨1, 0⟩] } (some ⟨1, 0⟩) ⟨2, 0⟩,
      relation { idleKnife with served := [⟨2, 0⟩] } none ⟨2, 0⟩, relation idleKnife none ⟨2, 0⟩) =
      (.shared, .fromStation, .toStation, .neither) := by decide
theorem test_meets_knife_windows :
    let late := { idleKnife with window := some (.late 3), engage := some ⟨true, some 3, 100⟩ }
    (knifeOf (withRecord .a late) .a).window = some (.late 3) ∧ (knifeOf (withRecord .a late) .a).engage = some ⟨true, some 3, 100⟩ ∧
      (∀ id, (knifeOf running .a).window ≠ some (.late id)) ∧ (knifeOf running .a).lateRefused = false ∧
      (knifeOf (withRecord .a { idleKnife with lateRefused := true }) .a).lateRefused = true := by
  refine ⟨by decide, by decide, ?_, by decide, by decide⟩
  intro id h
  simp [knifeOf, running, configured, State.reset, resetWith, idleKnife] at h
theorem test_meets_knife_lifted :
    let down := { idleKnife with state := .engaged, served := [⟨1, 0⟩] }
    let out := { down with lift := some ⟨6, 100⟩ }
    (knifeOf (withRecord .a out) .a).lift = some ⟨6, 100⟩ ∧ (knifeOf (withRecord .a down) .a).lift = none ∧
      (knifeOf (withRecord .a down) .a).served ≠ [] ∧ (knifeOf (withKnife .engaged) .a).served = [] := by decide
theorem test_meets_knife_resend :
    let r := { idleKnife with state := .faulted, served := [⟨1, 0⟩] }
    let gone := { r with served := [⟨9, 0⟩], held := some ⟨testLayout, ⟨9, 0⟩⟩ }
    (knifeOf (withRecord .a r) .a).served = [⟨1, 0⟩] ∧ (orderOf (withRecord .a r) ⟨1, 0⟩).map (·.layout) = some testLayout ∧
      orderOf (withRecord .a gone) ⟨9, 0⟩ = none ∧ (knifeOf (withRecord .a gone) .a).held.map (·.layout) = some testLayout := by decide
theorem test_meets_cut :
    running.me.running = true ∧ running.cs.lastSeq = none ∧ { running.cs with lastSeq := some 4 }.lastSeq = some (5 - 1) ∧
      ((9 : Byte) - 5).toNat = 3 + 1 ∧ running.cs.prevWc = none ∧ { running.cs with prevWc := some 7 }.prevWc = some 7 ∧
      orderOf running ⟨1, 0⟩ = none ∧ orderOf committed ⟨2, 0⟩ = some (testOrder 2 .next) ∧
      running.cs.plan.Pairwise (fun p q => p.w ≤ q.w) := by decide
theorem test_meets_classification :
    let causes : List RejectCause :=
      [.boundary, .joint, .knifeFault, .lateSet, .gradeMismatch, .glueStarve, .heatDeviation, .transition, .operator]
    let s := withMarks [testBoundary 6 500, operatorMark (.closed 500)]
    causes.find? (fun c => s.sm.marks.any fun m => overlaps s m 0 2000 && markCause m == c) = some .boundary ∧
      (∀ m ∈ running.sm.marks, overlaps running m 0 1000 = false) := by decide
theorem test_meets_gate :
    let passing := { running.cs with gate := ⟨false, some 500⟩ }
    let dwelling := { running.cs with gate := ⟨true, some 500⟩ }
    running.cs.gate.reject = true ∧ (∀ w, running.cs.gate.lastChange = some w → w + running.pt.geometry.gateDwell ≤ 1000) ∧
      passing.gate.reject = false ∧ dwelling.gate.reject = true ∧ dwelling.gate.lastChange = some 500 ∧
      (600 : WebPos) < 500 + running.pt.geometry.gateDwell := by
  refine ⟨by decide, ?_, by decide, by decide, by decide, by decide⟩
  intro w h
  simp [running, configured, State.reset, resetWith, resetCs] at h
def transferring : State :=
  { running with cs := { running.cs with stacker :=
    { transferring := true, current := some ⟨1, ⟨1, 0⟩, 2, 50, 3, 2000, none⟩, deck := none, faulted := false,
      timer := some 15, position := 100 } } }
theorem test_meets_transfer_restart :
    transferring.cs.stacker.timer ≠ none ∧ transferring.pt.stopped = true ∧
      lineCount transferring - transferring.pt.geometry.gateOffset < transferring.cs.stacker.position := by decide
theorem test_meets_transfer_fault :
    let s := { transferring with pt := { transferring.pt with stopped := false } }
    s.cs.stacker.timer ≠ none ∧ s.cs.stacker.current = some ⟨1, ⟨1, 0⟩, 2, 50, 3, 2000, none⟩ ∧
      ¬(s.pt.stopped = true ∧ lineCount s - s.pt.geometry.gateOffset < s.cs.stacker.position) := by decide
theorem test_meets_timers_stopped :
    running.cs.stacker.timer = none ∧ (tripOf running 0).timer = none := by decide
theorem test_meets_stacks :
    running.cs.stacker.transferring = false ∧ transferring.cs.stacker.transferring = true ∧ running.cs.stacker.current = none ∧
      transferring.cs.stacker.current = some ⟨1, ⟨1, 0⟩, 2, 50, 3, 2000, none⟩ ∧ transferring.cs.stacker.faulted = false ∧
      { transferring.cs.stacker with faulted := true }.faulted = true := by decide

/-! ## Zones, readings and standby -/

theorem test_meets_reading_source :
    testZone.placed = true ∧ testZone.station = some 6 ∧ testZone.channel = 1 ∧ readingZone running 6 1 = some 0 ∧
      readingZone running 6 2 = none ∧ readingZone running 7 1 = none := by decide
theorem test_meets_setpoint : { testZone with current := some 900 }.current = some 900 ∧ testZone.current = none := by decide
theorem test_trip_levels_at_their_bounds :
    let z := { testZone with current := some 900 }
    risesAt z 800 .low = false ∧ risesAt z 799 .low = true ∧ fallsAt z 810 .low = true ∧ risesAt z 1001 .high = true ∧
      fallsAt z 990 .high = true := by decide
theorem test_meets_standby_timer : (tripOf (withTrip { clearTrip with timer := some 60 }) 0).timer ≠ none := by decide
theorem test_meets_standby_zone :
    zoneOf running 0 = some testZone ∧ testZone.run ≠ .standby ∧ { testZone with run := .standby }.run = .standby ∧
      { testZone with returnValue := some 5 }.returnValue = some 5 ∧ testZone.returnValue = none := by decide
theorem test_meets_trip_flags :
    clearTrip.held = false ∧ { clearTrip with held := true }.held = true ∧ levelOf (tripOf running 0).windows .low = none ∧
      levelOf (tripOf (withTrip { clearTrip with windows := ⟨some 3, none, none⟩ }) 0).windows .low = some 3 := by decide
/-- Zone 0 with this record. -/
def withZone (z : Zone) : State :=
  { running with zr := { running.zr with zones := z :: List.replicate 15 powerOnZone } }
def testRamp : Ramp := ⟨900, 1000, 0, [⟨500, 500⟩, ⟨500, 500⟩], false, 1, some 3, none⟩
theorem test_meets_zone_work :
    let ramping := withZone { testZone with run := .ramping, current := some 950, ramp := some testRamp, lastApproach := some 3 }
    (testRamp.stages.map (·.share)).sum = 1000 ∧ (zoneOf ramping 0).bind (·.ramp) = some testRamp ∧
      (zoneOf (stepRamp 0 ramping) 0).bind (·.ramp) = some testRamp ∧ (zoneOf running 0).bind (·.ramp) = none ∧
      (zoneOf ramping 0).bind (·.lastApproach) = some 3 ∧ testZone.lastApproach ≠ some 3 := by decide
theorem test_meets_ramp_ended_by_its_step :
    let ramping := withZone { testZone with run := .ramping, current := some 950, ramp := some { testRamp with window := some 3 } }
    let late := { ramping with pt := { ramping.pt with lineCount := 1000 } }
    (zoneOf ramping 0).bind (·.ramp) ≠ none ∧ (zoneOf (stepRamp 0 late) 0).bind (·.ramp) = none ∧
      (zoneOf (standbyEntry 0 ramping) 0).bind (·.returnValue) = some 1000 ∧
      (zoneOf (standbyEntry 0 late) 0).bind (·.returnValue) = some 1000 := by decide
theorem test_meets_zone_approach :
    let set := fun (v : Option Int) => { withOrder .next with zr := { running.zr with
      grades := some ⟨List.replicate 5 (some 7), List.replicate 16 v⟩ :: List.replicate 31 none } }
    orderOf (set none) ⟨2, 0⟩ = some (testOrder 2 .next) ∧ orderOf (set none) ⟨9, 0⟩ = none ∧ zoneOf (set none) 0 = some testZone ∧
      gradeSetpoint (set none) 0 0 = none ∧ gradeSetpoint (set (some 900)) 0 0 = some 900 := by decide
theorem test_meets_zone_target :
    let ramping := { testZone with run := .ramping, current := some 950, ramp := some testRamp }
    zoneTarget ramping = some 1000 ∧ zoneTarget { ramping with ramp := none } = none ∧
      zoneTarget { testZone with run := .standby, returnValue := some 5 } = some 5 ∧ testZone.run = .idle ∧
      zoneTarget { testZone with run := .steady, current := some 900 } = some 900 := by decide
theorem test_meets_role_word :
    testStations = testStations.take 7 ++ testStation 9 .stacker :: testStations.drop 8 ∧
      testStations.take 7 = [testStation 2 .supervisor, testStation 3 .panel, testStation 4 .encoder, testStation 5 .drive,
        testStation 6 .zone, testStation 7 .cutoff, testStation 8 .gate] ∧
      roleWord { running with ri := { running.ri with stations := testStations.set 7 (some ⟨9, .stacker, 0, 8, 0⟩) } } .stacker = 8 ∧
      (testStations.all fun x => (x.map fun e => e.role != .stand 4).getD true) = true := by decide
theorem test_meets_grade_paper :
    gradePaper running 0 1 = some 7 ∧ gradePaper running 0 6 = none ∧ gradePaper running 1 1 = none ∧ gradePaper running 32 1 = none := by
  decide
/-- R142: half of a ramp from 900 to 1001 is 950, the quotient 50.5 rounded toward the start. -/
theorem test_ramp_rounds_toward_its_start :
    let r : Ramp := ⟨900, 1001, 0, [⟨500, 500⟩, ⟨500, 500⟩], false, 0, none, none⟩
    (r.stages.map (·.share)).sum = 1000 ∧ stageValue r 1 = 950 ∧ stageValue { r with start := 1001, target := 900 } 1 = 951 := by decide
theorem test_meets_latch_clear :
    (⟨true, true, true, false⟩ : LevelSet).foreign = false ∧ zoneOf running 0 = some testZone ∧ testZone.placed = true ∧
      zoneOf running 15 = some powerOnZone ∧ powerOnZone.placed = false := by decide

/-! ## Rolls and splices -/

theorem test_meets_charge :
    (testStand 1).active = some (testRoll 1) ∧ newStand.active = none ∧ standOf running 1 = some (testStand 1) := by decide
/-- Stand 1's record. -/
def withStand (r : Stand) : State := { running with sc := ⟨[r, testStand 2, testStand 3]⟩ }
def planned (x : SpliceState) (pulled : Bool) : Splice :=
  { idleSplice with state := x, kind := some .planned, target := some (.at 5000), boundaryW := some 5000, paper := some 7,
                    width := some 2000, pulled := pulled }
theorem test_meets_run_out :
    let low := { testStand 1 with active := some { testRoll 1 with remaining := 0 } }
    standOf (withStand low) 1 = some low ∧ (∃ roll, low.active = some roll ∧ roll.remaining ≤ low.runOut) ∧
      ¬(∃ roll, (testStand 1).active = some roll ∧ roll.remaining ≤ (testStand 1).runOut) ∧ low.splice.state = .idle ∧
      (planned .armed false).kind = some .planned ∧ (planned .armed false).pulled = false ∧ (planned .armed true).state ≠ .idle := by
  refine ⟨by decide, ⟨_, rfl, by decide⟩, ?_, by decide, by decide, by decide, by decide⟩
  rintro ⟨roll, h, hl⟩
  cases h
  revert hl
  decide
theorem test_meets_arming :
    let ready := { testStand 1 with standby := .ready (testRoll 9), splice := planned .pending false }
    let armed := { ready with splice := planned .armed false, spliceLead := 6000 }
    let matching := { ready with splice := { planned .matched false with target := some .now } }
    standOf (withStand ready) 1 = some ready ∧ ready.splice.state = .pending ∧ ready.standby = .ready (testRoll 9) ∧
      ready.jointRef = none ∧ ready.splice.paper = some (testRoll 9).paper ∧ ready.splice.width.getD 0 ≤ (testRoll 9).width ∧
      armed.splice.state = .armed ∧ armed.splice.target = some (.at 5000) ∧
      (5000 : Int) + armed.effOffset - armed.spliceLead ≤ lineCount (withStand armed) ∧
      matching.splice.state = .matched ∧ matching.splice.target = some .now ∧ (testStand 1).splice.state = .idle := by decide
theorem test_meets_completion :
    let pasting := { testStand 1 with splice := planned .pasting false }
    let s := withStand pasting
    standOf s 1 = some pasting ∧ pasting.splice.state = .pasting ∧
      (insertMark evaluate { kind := .joint 1, w := webPos (lineCount s + 40 - pasting.effOffset), uncertainty := .exact 0 }
        (modSplice 1 (fun p => { p with pasteTimer := none }) s)).2 = .admitted 0 ∧
      pasting.splice.boundaryW = some 5000 ∧ ((5040 : Int) - 5000).natAbs ≤ 16777215 ∧ idleSplice.kind ≠ some .planned := by decide
theorem test_meets_mismatch :
    let open1 := { testStand 1 with mismatch := some ⟨3, 5000⟩, splice := planned .armed true }
    standOf (withStand open1) 1 = some open1 ∧ open1.mismatch = some ⟨3, 5000⟩ ∧ (testStand 1).mismatch = none ∧
      (planned .armed false).boundaryW = some 5000 ∧ (planned .pasting false).state = .pasting := by decide
theorem test_meets_accel_timer :
    let s := withSplice fun p => { p with state := .accelerating, accelTimer := some 20 }
    (standOf s 1).map (fun r => (r.splice.accelTimer, r.splice.pasteTimer, r.splice.state)) =
      some (some 20, none, .accelerating) ∧ standOf s 4 = none := by decide
theorem test_meets_paste_timer :
    let s := withSplice fun p => { p with state := .pasting, pasteTimer := some 3 }
    (standOf s 1).map (fun r => (r.splice.pasteTimer, r.splice.accelTimer, r.splice.swapOwed)) =
      some (some 3, none, false) := by decide
theorem test_meets_swap_owed :
    let s := withSplice fun p => { p with pasteTimer := some 3, swapOwed := true }
    (standOf s 1).map (fun r => (r.splice.pasteTimer, r.splice.swapOwed)) = some (some 3, true) := by decide
theorem test_meets_roll_prepare :
    let v : RollFields := ⟨9, 7, 2000, 5000⟩
    rollCheck (.named .active) v = none ∧ rollCheck (.named .standby) v = none ∧
      rollIdHeld running 1 (.named .active) 9 = false ∧ rollIdHeld running 1 (.named .standby) 9 = false ∧
      rollIdHeld running 1 (.named .standby) 2 = true ∧ (standOf running 1).map (·.standby) = some .empty ∧
      standOf running 4 = none ∧ running.me.running = true ∧ configured.me.running = false ∧
      rollCheck (.named .active) { v with paper := 4096 } = some .paperRange := by decide
theorem test_meets_roll_duplicate :
    rollIdHeld running 1 (.named .active) 1 = false ∧ rollIdHeld running 2 (.named .active) 1 = true ∧
      rollIdHeld running 1 (.beyond 3) 1 = true ∧ rollCheck (.beyond 3) ⟨9, 7, 2000, 5000⟩ = some .fieldRange := by decide
theorem test_meets_roll_withdraw :
    (standOf (withStandby (.ready (testRoll 9)) id) 1).map (fun r => (r.standby, r.splice.state, r.splice.swapOwed)) =
      some (.ready (testRoll 9), .idle, false) ∧
    (standOf (withStandby (.ready (testRoll 9)) fun p => { p with state := .armed }) 1).map (·.splice.state) =
      some .armed := by decide
theorem test_meets_splice_now :
    (standOf running 1).map (·.splice.state) = some .idle ∧ standOf running 4 = none ∧
      (standOf (withSplice fun p => { p with state := .pending }) 1).map (·.splice.state) = some .pending := by decide
theorem test_meets_splice_abort :
    [SpliceState.idle, .pending, .armed, .accelerating, .matched, .pasting, .fault].all
      (fun x => decide ((standOf (withSplice fun p => { p with state := x }) 1).map (·.splice.state) = some x)) = true := by decide

/-! ## Tables, marks and triggers -/

theorem test_meets_empty_mask :
    fromSupervisor.mask = 0 ∧ 8 + 8 ≤ 16 ∧ 24 + 8 ≤ 32 ∧ 16 < 9 + 8 ∧ 32 < 25 + 8 ∧ (withMask 16).mask ≠ 0 ∧
      (withMask 16).mask.toNat % 2 ^ 4 = 0 ∧ (withMask 4).mask.toNat % 2 ^ 2 = 0 ∧ (withMask 17).mask.toNat % 2 ^ 4 ≠ 0 ∧
      (withMask 2).mask.toNat % 2 ^ 2 ≠ 0 := by decide
theorem test_no_fields_items :
    Item.lineStatus ∉ [Item.lineGeometry, .rejectSpan, .standConfiguration, .stand, .grade, .zone, .profile, .station] ∧
      Item.stand ∉ [Item.rejectSpan, .grade, .zone, .profile, .station] := by decide
theorem test_meets_reads :
    (withOrder .next).os.orders[1]? = some (testOrder 2 .next) ∧ running.os.orders.length ≤ 0 ∧ Item.order ≠ .fault := by decide
theorem test_meets_record_reads :
    (withMarks [transition]).sm.marks[0]? = some transition ∧ running.sm.marks.length ≤ 0 ∧ standOf running 1 = some (testStand 1) ∧
      standOf running 0 = none ∧ running.zr.zones[0]? = some testZone ∧ running.zr.zones.length ≤ 16 ∧
      running.zr.profiles[7]? = some powerOnProfile ∧ running.zr.profiles.length ≤ 8 ∧ testZone.placed = true ∧
      (∀ z, running.zr.zones[15]? = some z → z.placed = false) := by
  refine ⟨by decide, by decide, by decide, by decide, by decide, by decide, by decide, by decide, by decide, ?_⟩
  rintro z ⟨⟩
  rfl
theorem test_meets_timer_reads :
    running.cs.stacker.timer = none ∧ { running.cs.stacker with timer := some 15 }.timer = some 15 ∧ (tripOf running 0).timer = none ∧
      (tripOf (withTrip { clearTrip with timer := some 30 }) 0).timer = some 30 := by decide
theorem test_meets_geometry_write :
    (withMask 12).mask ≠ 0 ∧ (withMask 12).mask.toNat < 16 ∧ geometryInRange 12 testGeometry = true ∧ masked 12 0 = false ∧
      masked 12 1 = false ∧ masked 12 3 = true ∧ geometryLeadsFit (writeGeometry 12 testGeometry testGeometry) = true ∧
      running.cs.stacker.deck = none := by decide
theorem test_meets_geometry_refused :
    geometryInRange 1 testGeometry = true ∧ masked 1 0 = true ∧ geometryInRange 1 { testGeometry with dPre := 4999 } = false ∧
      geometryInRange 8 { testGeometry with knifeLead := 80000 } = true ∧ masked 8 3 = true ∧ masked 8 0 = false ∧
      masked 8 1 = false ∧
      geometryLeadsFit (writeGeometry 8 { testGeometry with knifeLead := 80000 } testGeometry) = false := by decide
theorem test_meets_geometry_masks :
    fromSupervisor.mask = 0 ∧ 16 ≤ (withMask 16).mask.toNat ∧ Reaches (withMask 16) .supervisor running := by
  refine ⟨by decide, by decide, ⟨by decide, by decide, by decide, by decide, by decide⟩⟩
theorem test_meets_geometry_in_use :
    let deck : Stack := ⟨2, ⟨1, 0⟩, 2, 50, 3, 2000, none⟩
    { transferring.cs.stacker with deck := some deck }.deck = some deck ∧ { testGeometry with deckCapacity := 2 }.deckCapacity < deck.cuts ∧
      geometryInRange 8 { testGeometry with deckCapacity := 2 } = true ∧
      geometryLeadsFit (writeGeometry 8 { testGeometry with deckCapacity := 2 } testGeometry) = true := by decide
theorem test_meets_profile :
    profileCheck powerOnProfile = none ∧ profileCheck ⟨[⟨500, 1000⟩], false⟩ = some .stageCount ∧
      [powerOnProfile, powerOnProfile].findSome? profileCheck = none ∧
      [powerOnProfile, ⟨[⟨99, 500⟩, ⟨99, 500⟩], false⟩].findSome? profileCheck = some .stageShort ∧ 8 < 7 + 2 := by decide
theorem test_meets_span_load :
    (∀ v ∈ [(⟨0, 5000⟩ : Span), ⟨5000, 0⟩], v.lead ≤ 5000 ∧ v.trail ≤ 5000) ∧
      (∃ v ∈ [(⟨0, 5000⟩ : Span), ⟨5001, 0⟩], 5000 < v.lead ∨ 5000 < v.trail) ∧ 7 + 2 ≤ 9 ∧ 9 < 8 + 2 := by decide
def testStandFields : StandFields := ⟨.named .liner, 1000, 2000, 0, 60000, 300, 20, 3⟩
def testZoneFields : ZoneFields :=
  ⟨.named .plate, 5000, 6, 2, 0, 0, 0, 0, -100, 100, 900, 10, ⟨true, false, false, false⟩, ⟨true, false, false, false⟩,
   ⟨true, false, false, true⟩, false⟩
theorem test_meets_stand_write :
    (withMask 2).mask ≠ 0 ∧ (withMask 2).mask.toNat < 4 ∧ standInRange 2 testStandFields = true ∧ masked 2 0 = false ∧
      testStandFields.spliceLead ≤ (testStand 1).effOffset + running.pt.geometry.dPre ∧ standOf running 1 = some (testStand 1) := by decide
theorem test_meets_stand_refused :
    let far := { testStandFields with spliceLead := 21001 }
    standInRange 3 { testStandFields with takeup := 1101 } = false ∧ standInRange 3 testStandFields = true ∧ masked 3 0 = true ∧
      standInRange 2 far = true ∧ masked 2 1 = true ∧ (testStand 1).effOffset + running.pt.geometry.dPre < far.spliceLead ∧
      4 ≤ (withMask 4).mask.toNat := by decide
theorem test_meets_zone_refused :
    let again := { testZoneFields with channel := 1 }
    zonesRefusal running 1 [(1, testZoneFields)] = some (.refused .wrongState .none .none) ∧
      zonesRefusal running 2 [(0, { testZoneFields with rampLead := 25001 })] = some (.refused .parameter .leadLong .none) ∧
      zonesRefusal configured 1 [(1, again)] = some (.refused .duplicate .none .none) ∧
      zonesRefusal configured 1 [(16, again)] = some (.refused .parameter .fieldRange .none) ∧ 16 ≤ (withMask 16).mask.toNat := by decide
theorem test_meets_station_refused :
    stationsRefusal running 1 [(30, .fields 40 (.named .zone) 0)] = some (.refused .wrongState .none .none) ∧
      stationsRefusal running 2 [(30, .fields 40 (.named .zone) 7)] = some (.refused .notFound .none .none) ∧
      stationsRefusal configured 1 [(30, .fields 1 (.named .zone) 0)] = some (.refused .duplicate .none .none) ∧
      stationsRefusal configured 1 [(30, .fields 40 (.named .zone) 0), (31, .fields 40 (.named .zone) 0)] =
        some (.refused .duplicate .none .none) ∧
      stationsRefusal configured 1 [(30, .fields 63 (.named .zone) 0)] = some (.refused .parameter .fieldRange .none) := by decide
theorem test_meets_zone_write :
    zonesRefusal running 14 [(1, testZoneFields)] = none ∧
      zonesRefusal configured 15 [(1, testZoneFields), (2, { testZoneFields with channel := 3 })] = none := by decide
theorem test_meets_station_write :
    stationsRefusal running 2 [(0, .fields 2 (.named .supervisor) 7)] = none ∧
      stationsRefusal configured 1 [(30, .fields 40 (.named .zone) 0), (31, .fields 41 (.named .zone) 0)] = none := by decide
theorem test_new_entry_watches_nothing :
    stationAfter 1 (.fields 40 (.named .zone) 7) none = some ⟨40, .zone, 0, 0, 0⟩ ∧
      stationAfter 1 (.fields 40 (.named .zone) 7) (some ⟨39, .zone, 5, 9, 9⟩) = some ⟨40, .zone, 5, 0, 0⟩ ∧
      stationAfter 2 (.fields 40 (.named .zone) 7) (some ⟨39, .zone, 5, 9, 9⟩) = some ⟨39, .zone, 7, 9, 9⟩ ∧
      masked 1 0 = true ∧ masked 2 0 = false := by decide
theorem test_meets_grade_write :
    let ok := gradePapersInRange (some testGrade)
    ok = true ∧ gradeInUse running 0 = false ∧ gradeInUse (withOrder .feeding) 0 = true ∧ fromSupervisor.force = false ∧
      forced.force = true ∧ configured.me.running = false ∧ running.me.running = true ∧
      gradePapersInRange (some ⟨[some 4096], []⟩) = false ∧ [some testGrade, some testGrade][0]? = some (some testGrade) ∧
      0 + [some testGrade, some testGrade].length ≤ 32 := by decide
theorem test_meets_grade_load_refused :
    firstRefused (gradeRefusal running false) (loadEntries 0 [some testGrade, some ⟨[some 0], []⟩]) =
        some (.refused .parameter .paperRange .none) ∧
      firstRefused (gradeRefusal (withOrder .feeding) false) (loadEntries 0 [some testGrade, some ⟨[some 0], []⟩]) =
        some (.refused .inUse .none .none) ∧ 32 < 31 + 2 := by decide
theorem test_meets_trigger_set :
    namedTrigger (.lineAt 1) = some (.lineAt 1) ∧ heldRefusal (.spliceNow 1) = none ∧ panelForbidsHeld (.spliceNow 1) = false ∧
      eventRefusal running (.lineAt 1) = none ∧ equalEntry running (.lineAt 1) (.spliceNow 1) = false ∧
      freeTrigger running = some 0 ∧ panelForbidsHeld (.orderFront ⟨1, 0⟩) = true := by decide
theorem test_meets_trigger_refused :
    namedTrigger (.spliceDone 6) = none ∧ 7 < 8 ∧ heldRefusal (.other 1) = some (.refused .parameter .notTriggerable .none) ∧
      (0 : Nat) ≤ running.pt.lineCount ∧ orderOf running ⟨1, 0⟩ = none ∧
      (orderOf committed ⟨1, 0⟩).map (·.feed) = some .committed ∧ running.sc.stands.length < 4 ∧
      equalEntry (withTrigger ⟨.lineAt 9, 0, .spliceNow 1, .supervisor, 7⟩) (.lineAt 9) (.spliceNow 1) = true ∧
      (∀ x ∈ List.replicate 8 (some (⟨.lineAt 9, 0, .spliceNow 1, .supervisor, 7⟩ : TriggerEntry)), x ≠ none) := by decide
def testEntry : TriggerEntry := ⟨.lineAt 9, 0, .spliceNow 1, .supervisor, 7⟩
theorem test_meets_trigger_clear :
    triggerAt (withTrigger testEntry) 1 = some testEntry ∧ triggerAt (withTrigger testEntry) 7 = none ∧
      ((groupEntries (withTrigger testEntry) 7).filter fun g => g.2.source == .supervisor).map (·.1) = [1] ∧
      ((groupEntries (withTrigger testEntry) 1).filter fun g => g.2.source == .supervisor).map (·.1) = [] ∧
      MgmtSource.supervisor ≠ .panel := by decide
theorem test_meets_start :
    startRefusal configured = none ∧ startRefusal State.reset = some (.refused .parameter .roleMissing (.role .encoder)) := by decide
theorem test_meets_restart :
    running.me.running = true ∧ configured.me.running = false ∧ running.sc.stands.length ≤ 5 := by decide
theorem test_meets_firing :
    (∃ b, (executeHeld evaluateHeld .supervisor (.spliceNow 1) running).2 = .accepted b) ∧
      (executeHeld evaluateHeld .supervisor (.spliceNow 4) running).2 = .refused .notFound .none .none ∧
      (groupEntries (withTrigger testEntry) 7).map (·.1) = [1] ∧ groupEntries running 7 = [] := by
  refine ⟨⟨.none, by decide⟩, by decide, by decide, by decide⟩

/-! ## The laws -/

theorem test_meets_safe : Safe running :=
  { line := ⟨test_meets_directive_laws, by decide, by decide, by decide, by decide, by decide, by decide⟩
    ring := ⟨by decide, by decide, fun i => by simp [running, configured, State.reset, resetWith, resetRi], by decide, by decide⟩
    sizes := ⟨by decide, by decide, by decide, by decide, by decide, by decide, by decide, by decide⟩
    map := ⟨by decide, by decide, by decide, by simp [running, configured, State.reset, resetWith], fun k r h hw => by
      match k with
      | 0 => simp [standOf] at h
      | i + 1 =>
        have hr : r ∈ running.sc.stands := List.mem_of_getElem? h
        revert hw
        exact (by decide : ∀ r ∈ running.sc.stands, r.splice.state.working = true → r.jointRef = none) r hr⟩
    orders := ⟨by decide, by decide, by decide, by decide⟩
    rolls := by decide
    latches := fun t h => by
      have ht : t = clearTrip := (by decide : ∀ x ∈ running.ts.zones, x = clearTrip) t h
      subst ht
      exact ⟨by decide, by decide, by decide⟩ }

/-! ## One step -/

/-- What a test looks at in the state a command leads to; a stop gives `false`. -/
def after (c : Instr) (s : State) (look : State → Bool) : Bool :=
  match step { s with pending := [c] } with
  | .next t => look t && t.pending.isEmpty
  | .fault _ => false
  | .refused _ => false

set_option maxRecDepth 20000 in
theorem test_start_enters_running :
    after (.start fromSupervisor (.fields ())) configured (fun t =>
      t.me.running && t.pt.lineCount == 0 && t.ri.answers == [⟨.supervisor, 2, 5, 9, .accepted .none⟩]) = true := by decide
set_option maxRecDepth 20000 in
theorem test_restart_leaves_running :
    after (.restart fromSupervisor (.fields ())) running (fun t => !t.me.running && t.os.holdCause == .restart) = true := by decide
set_option maxRecDepth 20000 in
theorem test_tally_moves_the_line :
    after (.tally ⟨63, 4, 6⟩ 100 0) running (fun t =>
      t.pt.lineCount == 100 && t.pt.speed == 600 && t.pt.lastSeq == some 6 && !t.pt.stopped &&
        t.ri.forwarding.length == 1) = true := by decide
set_option maxRecDepth 20000 in
theorem test_tally_after_a_gap :
    after (.tally ⟨63, 4, 9⟩ 100 0) running (fun t => t.pt.lineCount == 100 && t.pt.lostTallies == 3) = true := by decide
theorem test_append_makes_the_head_next :
    after (.orderAppend fromSupervisor (.fields (1, testFields))) running (fun t =>
      t.os.orders.map (·.id) == [⟨1, 0⟩] && t.ri.answers == [⟨.supervisor, 2, 8, 9, .accepted (.queueIndex 0)⟩]) = true := by decide
theorem test_reading_rises_a_level :
    after (.reading ⟨63, 6, 0⟩ 1 950)
      { running with zr := { running.zr with zones :=
        { testZone with current := some 800, run := .steady } :: List.replicate 15 powerOnZone } }
      (fun t => (tripOf t 0).live.high && (tripOf t 0).latched.high && t.ts.readingsTaken == 1 && t.ri.reports.length == 1)
      = true := by decide
theorem test_gate_passes_the_first_good_sheet :
    after (.cut ⟨63, 7, 0⟩ 0 0)
      { running with
        pt := { running.pt with lineCount := 43000 }
        cs := { running.cs with prevWc := some 2000 }
        os := { running.os with orders := [{ testOrder 1 .feeding with startW := some 0 }] } }
      (fun t => t.os.orders.map (·.good) == [2] && t.cs.gate == ⟨false, some 2000⟩ &&
        t.ri.directives == [⟨8, .gate false (.at 2000)⟩]) = true := by decide

end Sys2Proof.Tests
end

section
/-! PROOFS. The slow holder set and its held limit (R14): what placing and removing a stand does, case by case, and the held
limit as the least of the limits. -/

namespace Sys2Proof.Machine

/-! ## Placing a stand -/

theorem placeSlow_of_absent {k : Nat} {s : State} (limit : Nat) (absent : s.pt.slow.find? (fun h => h.stand == k) = none) :
    placeSlow k limit s = driveChange { s with pt := { s.pt with slow := s.pt.slow ++ [⟨k, limit⟩] } } := by
  simp only [placeSlow, absent]

theorem placeSlow_of_other_limit {k limit : Nat} {x : SlowHolder} {s : State}
    (held : s.pt.slow.find? (fun h => h.stand == k) = some x) (other : x.limit ≠ limit) :
    placeSlow k limit s = driveChange { s with pt := { s.pt with
      slow := s.pt.slow.map fun y => if y.stand = k then ⟨k, limit⟩ else y } } := by
  simp only [placeSlow, held, beq_iff_eq, if_neg other]

theorem placeSlow_of_same_limit {k limit : Nat} {s : State}
    (held : s.pt.slow.find? (fun h => h.stand == k) = some ⟨k, limit⟩) : placeSlow k limit s = s := by
  simp only [placeSlow, held, beq_self_eq_true, if_true]

/-! ## Removing a stand -/

/-- The test by which `removeSlow` looks for a stand finds exactly the stands of the entries. -/
theorem any_stand_iff (k : Nat) (l : List SlowHolder) :
    (l.any fun h => h.stand == k) = true ↔ ∃ x ∈ l, x.stand = k := by
  simp only [List.any_eq_true, beq_iff_eq]

theorem removeSlow_of_held {k : Nat} {s : State} (held : ∃ x ∈ s.pt.slow, x.stand = k) :
    removeSlow k s = driveChange { s with pt := { s.pt with slow := s.pt.slow.filter fun x => x.stand != k } } :=
  if_pos ((any_stand_iff k s.pt.slow).mpr held)

theorem removeSlow_of_absent {k : Nat} {s : State} (absent : ∀ x ∈ s.pt.slow, x.stand ≠ k) : removeSlow k s = s := by
  refine if_neg fun found => ?_
  obtain ⟨x, hx, hk⟩ := (any_stand_iff k s.pt.slow).mp found
  exact absent x hx hk

/-! ## The held limit -/

/-- The model's recursion for the held limit is the library's minimum over the limits. -/
theorem heldLimit_eq_min? (l : List SlowHolder) : heldLimit l = (l.map (·.limit)).min? := by
  induction l with
  | nil => rfl
  | cons h t ih =>
    rw [heldLimit, ih, List.map_cons, List.min?_cons]
    cases (t.map (·.limit)).min? <;> rfl

theorem heldLimit_eq_none_iff (l : List SlowHolder) : heldLimit l = none ↔ l = [] := by
  rw [heldLimit_eq_min?, List.min?_eq_none_iff, List.map_eq_nil_iff]

theorem heldLimit_eq_some_iff (l : List SlowHolder) (m : Nat) :
    heldLimit l = some m ↔ (∃ x ∈ l, x.limit = m) ∧ ∀ x ∈ l, m ≤ x.limit := by
  rw [heldLimit_eq_min?, List.min?_eq_some_iff, List.mem_map, List.forall_mem_map]

/-- Settles O14: the branches of `placeSlow` and of `removeSlow`, and the held limit as the minimum of the limits. -/
theorem slowHolderSetChanges : Obligations.SlowHolderSetChanges :=
  ⟨fun _ limit _ => placeSlow_of_absent limit, fun _ _ _ _ => placeSlow_of_other_limit, fun _ _ _ => placeSlow_of_same_limit,
   fun _ _ => removeSlow_of_held, fun _ _ => removeSlow_of_absent, heldLimit_eq_none_iff, heldLimit_eq_some_iff⟩

end Sys2Proof.Machine
end

section
/-! PROOFS. The reject extents of the segment map (R23) and what the uncertainty claim (R32) does to them: an extent grows with
its mark's uncertainty, and the claim changes nothing else that extents, retirements and thresholds read. -/

namespace Sys2Proof.Machine

/-! ## The reject extent and its overlap with board -/

theorem overlaps_iff {s : State} {m : Mark} {a b : WebPos} (board : a < b) :
    overlaps s m a b = true ↔ extentLow s m < b ∧ a < extentHigh s m := by
  simp only [overlaps, Bool.and_eq_true, decide_eq_true_eq, board, true_and]

theorem farEdge_of_boundary {s : State} {m : Mark} {c : Option OrderId} {n : OrderId} {taken : List Threshold}
    (kind : m.kind = .boundary c n taken) : farEdge s m = m.w := by
  simp only [farEdge, kind]

theorem extentLow_of_no_width {s : State} {m : Mark} (span : spanAt s (spanIndex m.kind) = ⟨0, 0⟩) (sure : m.uncertainty = 0) :
    extentLow s m = m.w := by
  simp [extentLow, span, sure]

theorem extentHigh_of_no_width {s : State} {m : Mark} (span : spanAt s (spanIndex m.kind) = ⟨0, 0⟩) (sure : m.uncertainty = 0) :
    extentHigh s m = farEdge s m := by
  simp [extentHigh, span, sure]

/-- The extent of such a boundary is the one position of its mark, which board holds only strictly inside. -/
theorem overlaps_boundary_of_no_width {s : State} {m : Mark} {a b : WebPos} {c : Option OrderId} {n : OrderId}
    {taken : List Threshold} (board : a < b) (kind : m.kind = .boundary c n taken)
    (span : spanAt s (spanIndex m.kind) = ⟨0, 0⟩) (sure : m.uncertainty = 0) :
    overlaps s m a b = true ↔ a < m.w ∧ m.w < b := by
  rw [overlaps_iff board, extentLow_of_no_width span sure, extentHigh_of_no_width span sure, farEdge_of_boundary kind, and_comm]

/-- Settles O17: the formulas of the extent and the rows of Table 2-3 are the model's own, the overlap is `overlaps_iff`, and
the boundary without width is `overlaps_boundary_of_no_width`. -/
theorem rejectExtentAndOverlap : Obligations.RejectExtentAndOverlap :=
  ⟨fun _ _ _ _ board => ⟨rfl, rfl, overlaps_iff board, fun _ _ _ => overlaps_boundary_of_no_width board⟩,
   fun _ _ => rfl, fun _ => rfl, fun _ _ _ => rfl, fun _ _ => rfl⟩

/-! ## An extent grows with its mark's uncertainty -/

theorem extentLow_le_of_uncertainty_le (s : State) {m : Mark} {u : Nat} (wider : m.uncertainty ≤ u) :
    extentLow s { m with uncertainty := u } ≤ extentLow s m :=
  Int.sub_le_sub_left (Int.ofNat_le.mpr wider) _

theorem extentHigh_le_of_uncertainty_le (s : State) {m : Mark} {u : Nat} (wider : m.uncertainty ≤ u) :
    extentHigh s m ≤ extentHigh s { m with uncertainty := u } :=
  Int.add_le_add_left (Int.ofNat_le.mpr wider) _

theorem hasPassed_iff (s : State) (m : Mark) :
    hasPassed s m = true ↔ m.isOpen = false ∧ extentHigh s m < lineCount s - s.pt.geometry.gateOffset := by
  simp only [hasPassed, Bool.and_eq_true, Bool.not_eq_true', decide_eq_true_eq]

/-- A mark that passes the retirement test passed it when it was narrower: its high end was no further along the web. -/
theorem hasPassed_of_uncertainty_le {s : State} {m : Mark} {u : Nat} (wider : m.uncertainty ≤ u)
    (passed : hasPassed s { m with uncertainty := u } = true) : hasPassed s m = true := by
  obtain ⟨notOpen, beyondGate⟩ := (hasPassed_iff s _).mp passed
  exact (hasPassed_iff s m).mpr ⟨notOpen, (extentHigh_le_of_uncertainty_le s wider).trans_lt beyondGate⟩

/-! ## The uncertainty claim (R32) -/

@[simp] theorem extentLow_raiseUncertainty (amount : Nat) (s : State) (m : Mark) :
    extentLow (raiseUncertainty amount s) m = extentLow s m := rfl
@[simp] theorem extentHigh_raiseUncertainty (amount : Nat) (s : State) (m : Mark) :
    extentHigh (raiseUncertainty amount s) m = extentHigh s m := rfl
@[simp] theorem hasPassed_raiseUncertainty (amount : Nat) (s : State) (m : Mark) :
    hasPassed (raiseUncertainty amount s) m = hasPassed s m := rfl
@[simp] theorem reachedThresholds_raiseUncertainty (amount : Nat) (s : State) (w : WebPos) (taken : List Threshold) :
    reachedThresholds (raiseUncertainty amount s) w taken = reachedThresholds s w taken := rfl

/-- Settles O13: the claim raises the uncertainties and nothing that an extent, the retirement test or a threshold reads of the
state, so each mark is compared with itself under a greater uncertainty, which saturation keeps at least as great. -/
theorem uncertaintyClaimWidensEveryMark : Obligations.UncertaintyClaimWidensEveryMark := by
  intro amount s
  refine ⟨rfl, reachedThresholds_raiseUncertainty amount s, fun m bounded => ?_, rfl⟩
  have wider : m.uncertainty ≤ min 65535 (m.uncertainty + amount) := le_min bounded (Nat.le_add_right _ _)
  simp only [extentLow_raiseUncertainty, extentHigh_raiseUncertainty, hasPassed_raiseUncertainty]
  exact ⟨extentLow_le_of_uncertainty_le s wider, extentHigh_le_of_uncertainty_le s wider, hasPassed_of_uncertainty_le wider⟩

end Sys2Proof.Machine
end

section
/-! PROOFS. What every command keeps: each ends in a next state with the waiting commands and the laws of Safety.lean kept, since
a command is a reset, a frame at the receive port, the transmit pin or a timer. -/

namespace Sys2Proof.Machine

/-! ## The laws at the power-on values -/

/-- The power-on values keep the laws, whatever the straps, the waiting commands and the counter of free values. -/
theorem safe_resetPart (straps : BitVec 6) (s : State) : Safe (resetPart straps s) where
  line := ⟨⟨Nat.zero_le _, Nat.zero_le _, fun _ => Nat.zero_le _⟩, Nat.zero_le _, Nat.zero_le _, List.Pairwise.nil,
    List.forall_mem_nil _, List.forall_mem_nil _, fun _ => rfl⟩
  ring := ⟨Nat.zero_le _, List.nodup_nil, fun _ => Nat.zero_le _, fun held => absurd rfl held, Nat.zero_le _⟩
  sizes := ⟨rfl, rfl, rfl, rfl, rfl, rfl, .inl rfl, rfl⟩
  map := ⟨Nat.zero_le _, List.nodup_nil, Nat.zero_le _, List.forall_mem_nil _, fun k r found => by
    cases k <;> simp [standOf, resetPart, resetWith] at found⟩
  orders := ⟨List.nodup_nil, Nat.zero_le _, Nat.zero_le _, fun ⟨_, mem, _⟩ => absurd mem List.not_mem_nil⟩
  rolls := List.nodup_nil
  latches := fun t mem => by
    obtain rfl : t = clearTrip := List.eq_of_mem_replicate mem
    exact ⟨id, id, id⟩

/-- Settles O59: the state right after reset is the power-on values with the straps read as 1. -/
theorem lawsHoldAtReset : Obligations.LawsHoldAtReset := safe_resetPart 1 State.reset

theorem kept_resetPart (straps : BitVec 6) (s : State) : Kept s (resetPart straps s) := ⟨rfl, fun _ => safe_resetPart straps s⟩

/-! ## Frames at the receive port -/

theorem kept_receiveOctets (os : List Byte) (s : State) : Kept s (receiveOctets os s) := by
  unfold receiveOctets
  split
  · exact kept_repeatFrame _ s
  · split
    · exact kept_takeFrame ..
    · exact kept_faultFrame os s

theorem kept_receiveRequest (h : ReqHeader) (f : RequestForm) (s : State) : Kept s (receiveRequest h f s) := by
  unfold receiveRequest
  split
  · exact kept_repeatFrame _ s
  · split
    · exact kept_countReturned s
    · split
      · exact kept_takeRequest h f s
      · exact kept_forward _ s

theorem kept_receiveObserved (h : FrameHeader) (kind : Byte) (payload : List Byte) (c : Content) (s : State) :
    Kept s (receiveObserved h kind payload c s) := by
  unfold receiveObserved
  dsimp only
  split
  · exact kept_repeatFrame _ s
  · exact kept_takeFrame ..

/-! ## The transmit pin -/

/-- A directive that leaves the front of the queue leaves its laws, which bound numbers of entries. -/
theorem DirectiveLaws.tail {d : PlacedDirective} {q : List PlacedDirective} (l : DirectiveLaws (d :: q)) : DirectiveLaws q where
  others := le_trans ((List.sublist_cons_self d q).filter _).length_le l.others
  oneRequest := le_trans ((List.sublist_cons_self d q).filter _).length_le l.oneRequest
  oneSetpoint z := le_trans ((List.sublist_cons_self d q).filter _).length_le (l.oneSetpoint z)

/-- The pin takes the oldest directive (R183). -/
theorem kept_takeDirective {d : PlacedDirective} {q : List PlacedDirective} {s : State} (queue : s.ri.directives = d :: q)
    (pin : Option RingFrame) (seq : Byte) :
    Kept s { s with ri := { s.ri with directives := q, txPin := pin, originSeq := seq } } where
  pending := rfl
  safe l :=
    { line := ⟨(queue ▸ l.line.directives).tail, l.line.reports, l.line.orders, l.line.mapOrder, l.line.uncertainty,
        l.line.carry, l.line.noMarks⟩
      ring := ⟨l.ring.forwarding, l.ring.answers, l.ring.slots, l.ring.held, l.ring.lineCount⟩
      sizes := ⟨l.sizes.stations, l.sizes.spans, l.sizes.grades, l.sizes.zones, l.sizes.trips, l.sizes.profiles,
        l.sizes.stands, l.sizes.triggers⟩
      map := ⟨l.map.bound, l.map.ids, l.map.process, l.map.joints, l.map.unarmed⟩
      orders := l.orders.of_feeds rfl
      rolls := l.rolls
      latches := l.latches }

theorem kept_transmitNext (s : State) : Kept s (transmitNext s) := by
  unfold transmitNext
  split
  · next f t queue =>
    refine .setRi rfl rfl rfl rfl (fun l => ?_) fun l => l.ring.answers
    have room := l.ring.forwarding
    rw [queue] at room
    exact le_trans (Nat.le_succ _) room
  · next d t _ queue => exact kept_takeDirective queue _ _
  · next a t _ _ queue =>
    refine .setRi rfl rfl rfl rfl (fun l => l.ring.forwarding) fun l => ?_
    have slots := l.ring.answers
    rw [queue, List.map_cons, List.nodup_cons] at slots
    exact slots.2
  · next r t _ _ _ queue => exact kept_transmitReport queue
  · exact Kept.refl s

/-! ## Every command -/

/-- Each command ends in a next state, which keeps the waiting commands and the laws: the requests and frames by the receive
port's lemmas, the timers because they are the line's work. -/
theorem exec_kept (c : Instr) (s : State) : ∃ t, exec c s = .next t ∧ Kept s t := by
  cases c with
  | resetInput straps => exact ⟨_, rfl, kept_resetPart straps s⟩
  | receiveFrame f =>
    cases f with
    | octets os => exact ⟨_, rfl, kept_receiveOctets os s⟩
    | request h r => exact ⟨_, rfl, kept_receiveRequest h r s⟩
  | tally h delta flags => exact ⟨_, rfl, kept_receiveObserved ..⟩
  | reading h channel value => exact ⟨_, rfl, kept_receiveObserved ..⟩
  | stateFrame h word offset => exact ⟨_, rfl, kept_receiveObserved ..⟩
  | cut h offset flags => exact ⟨_, rfl, kept_receiveObserved ..⟩
  | unknownRequest h payload => exact ⟨_, rfl, kept_receiveObserved ..⟩
  | transmit =>
    refine ⟨_, rfl, ?_⟩
    split
    · exact Kept.refl s
    · exact kept_transmitNext s
  | accelTimeout k => exact ⟨_, rfl, ((Works.refl s).accelExpiry (u := true) (evaluate_works s) k).runs.kept⟩
  | pasteTimeout k => exact ⟨_, rfl, ((Works.refl s).pasteExpiry (u := true) (evaluate_works s) k).runs.kept⟩
  | standbyTimeout n => exact ⟨_, rfl, ((Works.refl s).standbyExpiry (u := true) (evaluate_works s) n).runs.kept⟩
  | transferTimeout => exact ⟨_, rfl, ((Works.refl s).transferExpiry (q := .quiet)).runs.kept⟩
  | _ => exact ⟨_, rfl, kept_receiveRequest ..⟩

/-- Settles O2: what `exec_kept` says of the waiting commands. -/
theorem everyCommandAnswersNext : Obligations.EveryCommandAnswersNext := fun c s =>
  have ⟨t, next, kept⟩ := exec_kept c s
  ⟨t, next, kept.pending⟩

/-! ## The step -/

theorem step_of_pending {s : State} {c : Instr} {rest : List Instr} (waiting : s.pending = c :: rest) :
    step s = exec c { s with pending := rest } := by
  simp only [step, waiting]

theorem step_of_idle {s : State} (idle : s.pending = []) : step s = .next s := by
  simp only [step, idle]

/-- Settles O1: the two cases of the queue of waiting commands. -/
theorem stepRunsTheFrontCommand : Obligations.StepRunsTheFrontCommand :=
  ⟨fun _ _ _ => step_of_pending rfl, fun _ => step_of_idle⟩

/-- The laws do not speak of the waiting commands. -/
theorem Safe.setPending {s : State} (l : Safe s) (rest : List Instr) : Safe { s with pending := rest } :=
  (l.work.same (t := { s with pending := rest }) rfl rfl rfl rfl rfl rfl id).safe
    ⟨l.ring.forwarding, l.ring.answers, l.ring.slots, l.ring.held, l.ring.lineCount⟩
    ⟨l.sizes.stations, l.sizes.spans, l.sizes.grades, l.sizes.zones, l.sizes.trips, l.sizes.profiles, l.sizes.stands,
      l.sizes.triggers⟩

/-- Settles O60: a step idles or runs one command, and every command keeps the laws (`exec_kept`). -/
theorem everyStepKeepsTheLaws : Obligations.EveryStepKeepsTheLaws := by
  intro s t safe stepped
  cases waiting : s.pending with
  | nil =>
    rw [step_of_idle waiting] at stepped
    cases stepped
    exact safe
  | cons c rest =>
    obtain ⟨u, next, kept⟩ := exec_kept c { s with pending := rest }
    rw [step_of_pending waiting, next] at stepped
    cases stepped
    exact kept.safe (safe.setPending rest)

/-! ## The timers' frame -/

/-- Settles O57: the expiries are pieces of the line's work, and every piece of work keeps the frame. -/
theorem timersKeepTheFrame : Obligations.TimersKeepTheFrame := by
  rintro c s t ⟨k, rfl | rfl | rfl | rfl⟩ next <;> cases next
  · exact ((Works.refl s).accelExpiry (u := true) (evaluate_works s) k).frame
  · exact ((Works.refl s).pasteExpiry (u := true) (evaluate_works s) k).frame
  · exact ((Works.refl s).standbyExpiry (u := true) (evaluate_works s) k).frame
  · exact ((Works.refl s).transferExpiry (q := .quiet)).frame

/-! ## Power-on and PASSIVE -/

/-- Settles O3: RESET_INPUT is `resetPart`, whose values are the model's power-on records. -/
theorem resetInputGivesPowerOnValues : Obligations.ResetInputGivesPowerOnValues := by
  intro straps s
  refine ⟨resetPart straps s, rfl, ?_⟩
  repeat' first | exact rfl | apply And.intro

/-- Settles O4: the test of PASSIVE stands first at both ports. -/
theorem passivePartOnlyRepeats : Obligations.PassivePartOnlyRepeats := fun _ passive =>
  ⟨fun _ => congrArg _ (if_pos passive), fun _ _ => congrArg _ (if_pos passive), congrArg _ (if_pos passive)⟩

end Sys2Proof.Machine
end

section
/-! PROOFS. Frames on the ring: the check of R168 as the inverted sum, what is done with a frame that passes it and one that fails
it (R168 to R173), the transmit pin (R180 to R183) and the report queue (R182). -/

namespace Sys2Proof.Machine

/-! ## The check -/

theorem foldl_octetSum (os : List Byte) (n : Nat) :
    os.foldl (fun n o => n + o.setWidth 16) (BitVec.ofNat 16 n) = BitVec.ofNat 16 (n + (os.map (·.toNat)).sum) := by
  induction os generalizing n with
  | nil => rfl
  | cons o t ih =>
    have added : BitVec.ofNat 16 n + o.setWidth 16 = BitVec.ofNat 16 (n + o.toNat) := by
      apply BitVec.eq_of_toNat_eq
      simp
    rw [List.foldl_cons, added, ih, List.map_cons, List.sum_cons, Nat.add_assoc]

/-- The 16-bit sum of R168 is the sum of the octets as numbers, modulo 65,536. -/
theorem octetSum_eq (os : List Byte) : octetSum os = BitVec.ofNat 16 ((os.map (·.toNat)).sum) :=
  (foldl_octetSum os 0).trans (by rw [Nat.zero_add])

/-- A 16-bit field is its high octet followed by its low one. -/
theorem extract_append_extract (c : Word16) : c.extractLsb' 8 8 ++ c.extractLsb' 0 8 = c :=
  (BitVec.extractLsb'_append_extractLsb'_eq_extractLsb' rfl).trans BitVec.extractLsb'_eq_self

theorem octetsOf_append (hi lo : Byte) : octetsOf (hi ++ lo) = [hi, lo] := by
  rw [octetsOf, BitVec.extractLsb'_append_eq_left, BitVec.extractLsb'_append_eq_right]

/-- The check formed is the inverted sum, high octet first. -/
theorem checkOf_append (os : List Byte) :
    (checkOf os).1 ++ (checkOf os).2 = ~~~(BitVec.ofNat 16 ((os.map (·.toNat)).sum)) := by
  rw [← octetSum_eq]
  exact extract_append_extract _

theorem eq_checkOf_iff (hi lo : Byte) (os : List Byte) :
    (hi, lo) = checkOf os ↔ hi ++ lo = ~~~(BitVec.ofNat 16 ((os.map (·.toNat)).sum)) := by
  rw [← checkOf_append]
  constructor
  · rintro same
    rw [← same]
  · intro same
    have octets := congrArg octetsOf same
    rw [octetsOf_append, octetsOf_append, List.cons.injEq, List.cons.injEq] at octets
    exact Prod.ext octets.1 octets.2.1

theorem lengthRight_iff (os : List Byte) : lengthRight os = true ↔ os.length = 7 + lengthOctet os ∧ lengthOctet os ≤ 240 := by
  simp only [lengthRight, Bool.and_eq_true, beq_iff_eq, decide_eq_true_eq]
  omega

theorem check_of_short {os : List Byte} (short : os.length < 7) : checkReceived os = none ∧ checkedOctets os = os :=
  ⟨if_pos short, if_pos short⟩

theorem check_of_long {os : List Byte} (long : 5 ≤ os.length) (hi lo : Byte) :
    checkReceived (os ++ [hi, lo]) = some (hi, lo) ∧ checkedOctets (os ++ [hi, lo]) = os := by
  have notShort : ¬(os ++ [hi, lo]).length < 7 := by simp; omega
  simp only [checkReceived, checkedOctets, if_neg notShort]
  simp

/-- A frame of a header, a payload and two check octets passes exactly where its length octet and its check are right. -/
theorem passesCheck_iff (t o k q l : Byte) (body : List Byte) (hi lo : Byte) :
    passesCheck ([t, o, k, q, l] ++ body ++ [hi, lo]) = true ↔
      body.length = l.toNat ∧ l.toNat ≤ 240 ∧
        hi ++ lo = ~~~(BitVec.ofNat 16 ((([t, o, k, q, l] ++ body).map (·.toNat)).sum)) := by
  obtain ⟨received, checked⟩ := check_of_long (os := [t, o, k, q, l] ++ body) (by simp) hi lo
  have size : lengthOctet ([t, o, k, q, l] ++ body ++ [hi, lo]) = l.toNat := rfl
  have octets : ([t, o, k, q, l] ++ body ++ [hi, lo]).length = 7 + body.length := by
    simp only [List.length_append, List.length_cons, List.length_nil]
    omega
  rw [passesCheck, Bool.and_eq_true, lengthRight_iff, size, octets, received, checked, beq_iff_eq, Option.some.injEq,
    eq_checkOf_iff, Nat.add_left_cancel_iff, and_assoc]

/-- A frame that is built with its check passes it. -/
theorem passesCheck_frameOctets (target origin kind sequence : Byte) {payload : List Byte} (fits : payload.length ≤ 240) :
    passesCheck (frameOctets target origin kind sequence payload) = true := by
  have size : (BitVec.ofNat 8 payload.length).toNat = payload.length := by
    rw [BitVec.toNat_ofNat, Nat.mod_eq_of_lt (by omega)]
  refine (passesCheck_iff ..).mpr ⟨size.symm, size.le.trans fits, ?_⟩
  exact checkOf_append _

/-! ## The octets of a frame at the transmit pin -/

theorem payloadOf_length_le {header : List Byte} (fits : header.length ≤ 240) (fields : List Byte) :
    (payloadOf header fields).length ≤ 240 := by
  simp only [payloadOf, List.length_append, List.length_take]
  omega

theorem take_payloadOf {header : List Byte} {n : Nat} (size : header.length = n) (fields : List Byte) :
    (payloadOf header fields).take n = header := size ▸ List.take_left

theorem payloadOf_nil (header : List Byte) : payloadOf header [] = header := by
  rw [payloadOf, List.take_nil, List.append_nil]

theorem numberOctets_of_word (w : Word16) : numberOctets 2 w.toNat = octetsOf w := by
  have high : octet (w.toNat / 256 ^ 1) = w.extractLsb' 8 8 := by
    apply BitVec.eq_of_toNat_eq
    simp [octet, BitVec.extractLsb'_toNat, Nat.shiftRight_eq_div_pow]
  have low : octet (w.toNat / 256 ^ 0) = w.extractLsb' 0 8 := by
    apply BitVec.eq_of_toNat_eq
    simp [octet, BitVec.extractLsb'_toNat]
  rw [numberOctets, numberOctets, numberOctets, high, low, octetsOf]

/-- No detail code needs its high octet (Table 10-3). -/
theorem numberOctets_detail (d : Detail) : numberOctets 2 d.code = [0, BitVec.ofNat 8 d.code] := by
  cases d <;> rfl

theorem resultOctets_refused (r : Reason) (d : Detail) (x : Subject) :
    resultOctets (.refused r d x) = [1, BitVec.ofNat 8 r.code, 0, BitVec.ofNat 8 d.code] := by
  rw [resultOctets, numberOctets_detail]
  rfl

theorem reportHeader_eq (r : Report) :
    [octet r.body.code] ++ numberOctets 2 r.number.toNat ++ numberOctets 6 r.lineCount =
      [BitVec.ofNat 8 r.body.code, r.number.extractLsb' 8 8, r.number.extractLsb' 0 8,
        BitVec.ofNat 8 (r.lineCount / 256 ^ 5), BitVec.ofNat 8 (r.lineCount / 256 ^ 4), BitVec.ofNat 8 (r.lineCount / 256 ^ 3),
        BitVec.ofNat 8 (r.lineCount / 256 ^ 2), BitVec.ofNat 8 (r.lineCount / 256), BitVec.ofNat 8 r.lineCount] := by
  rw [numberOctets_of_word]
  simp only [numberOctets, octet, pow_one, pow_zero, Nat.div_one]
  rfl

/-- Settles O5: the check by `passesCheck_iff`, and each payload as its header followed by what fits behind it. -/
theorem checkIsTheInvertedSum : Obligations.CheckIsTheInvertedSum := by
  have answerHeader (slot : Slot) (target code tag : Byte) (reply : Reply) (x : List Byte) (result : resultOctets reply = x) :
      answerPayload ⟨slot, target, code, tag, reply⟩ = payloadOf ([code, tag] ++ x) (answerOctets reply) := by
    rw [answerPayload, result]
  refine ⟨fun t o k q _ fits => passesCheck_frameOctets t o k q fits, passesCheck_iff, ?_, fun d => rfl,
    fun target own seq => ⟨?_, ?_⟩, ?_, ?_, ?_, fun h f => take_payloadOf (n := 4) rfl _, ?_, ?_, ?_, ?_, rfl, rfl, ?_⟩
  · intro target asker own seq d a r h f
    refine ⟨passesCheck_frameOctets _ _ _ _ (payloadOf_length_le ?_ _), passesCheck_frameOctets _ _ _ _ (payloadOf_length_le ?_ _),
      passesCheck_frameOctets _ _ _ _ (payloadOf_length_le ?_ _), passesCheck_frameOctets _ _ _ _ (payloadOf_length_le ?_ _)⟩
    · simp
    · cases reply : a.reply with
      | accepted b => simp [resultOctets]
      | refused r d x => rw [resultOctets_refused]; simp
    · rw [reportHeader_eq]; simp
    · simp
  · exact payloadOf_nil [9]
  · exact congrArg (frameOctets _ _ _ _) (payloadOf_nil [9])
  · exact fun slot target code tag => payloadOf_nil [code, tag, 0, 0, 0, 0]
  · intro slot target code tag r d
    rw [answerHeader _ _ _ _ _ _ (resultOctets_refused r d .none)]
    exact payloadOf_nil _
  · intro h b bodyless
    simp only [List.mem_cons, List.not_mem_nil, or_false] at bodyless
    obtain rfl | rfl | rfl := bodyless <;> exact payloadOf_nil _
  · exact fun slot target code tag b => take_payloadOf (n := 6) rfl _
  · intro slot target code tag r d x
    rw [answerHeader _ _ _ _ _ _ (resultOctets_refused r d x)]
    exact take_payloadOf (n := 6) rfl _
  · intro r
    rw [reportPayload, reportHeader_eq]
    exact take_payloadOf (n := 9) rfl _
  · intros; rfl
  · intros; rfl

/-! ## Frames that fail the check -/

/-- A request that its source may make is answered as the rule of its body decides, in the source's slot (R187, R188). -/
theorem receiveBody_of_reaches {h : ReqHeader} {src : MgmtSource} {s : State} (reaches : Reaches h src s) {b : Body}
    (permitted : panelForbids b = false) :
    receiveRequest h (.body b) s =
      answered h src (BitVec.ofNat 8 b.code) (applyBody h src b s).2 (applyBody h src b s).1 := by
  rw [receiveRequest_of_reaches reaches, takeForm, permitted, Bool.and_false]
  rfl

/-- The same, the rule's outcome given as a pair of state and reply. -/
theorem receiveBody_of_rule {h : ReqHeader} {src : MgmtSource} {s t : State} {reply : Reply} (reaches : Reaches h src s) {b : Body}
    (permitted : panelForbids b = false) (rule : applyBody h src b s = (t, reply)) :
    receiveRequest h (.body b) s = answered h src (BitVec.ofNat 8 b.code) reply t := by
  rw [receiveBody_of_reaches reaches permitted, rule]

/-- Settles O6: a frame that fails is `faultFrame`, and READ of the fault item is `readFaultRecord`. -/
theorem faultedFrameIsRecordedUntilRead : Obligations.FaultedFrameIsRecordedUntilRead := by
  refine ⟨fun os s active fails => ?_, fun h src i s reaches => ?_, fun os hi lo =>
    ⟨lengthRight_iff os, rfl, checkOf_append os, check_of_short, fun long => check_of_long long hi lo⟩⟩
  · have received : receiveOctets os s = faultFrame os s := by
      simp only [receiveOctets, active, fails, Bool.false_eq_true, if_false]
    refine congrArg _ (received.trans ?_)
    cases kept : s.ri.faultRecord <;> simp only [faultFrame, kept] <;> rfl
  · refine congrArg _ ((receiveBody_of_reaches reaches (b := .read (.named .fault) i) rfl).trans ?_)
    cases kept : s.ri.faultRecord <;> simp [applyBody, ruleRead, readItem, readFaultRecord, itemReply, readFaultItem, kept] <;> rfl

/-! ## Frames that pass the check -/

theorem receiveOctets_of_passes {os : List Byte} {s : State} (active : s.passive = false) (passes : passesCheck os = true) :
    receiveOctets os s = takeFrame (.octets os) (os.getD 0 0) (os.getD 1 0) (os.getD 3 0)
      (contentOf (os.getD 2 0) (os.getD 3 0) ((os.drop 5).take (lengthOctet os))) s := by
  simp only [receiveOctets, active, passes, Bool.false_eq_true, if_false, if_true]

theorem takeFrame_of_own {f : RingFrame} {target origin seq : Byte} {c : Content} {s : State} (own : origin = ownOctet s) :
    takeFrame f target origin seq c s = countReturned s :=
  if_pos (beq_iff_eq.mpr own)

theorem takeFrame_of_request {f : RingFrame} {target origin seq : Byte} {s : State} (p : List Byte)
    (notOwn : origin ≠ ownOctet s) (mine : target = ownOctet s) :
    takeFrame f target origin seq (.request p) s = takePayload target origin seq p s := by
  unfold takeFrame
  rw [if_neg (by simpa using notOwn), if_pos (by simpa using mine)]

theorem takeFrame_of_foreign {f : RingFrame} {target origin seq : Byte} {s : State} (notOwn : origin ≠ ownOctet s)
    (mine : target = ownOctet s) : takeFrame f target origin seq .foreign s = forward f s := by
  unfold takeFrame
  rw [if_neg (by simpa using notOwn), if_pos (by simpa using mine)]

theorem takeFrame_of_stray {f : RingFrame} {target origin seq : Byte} {c : Content} {s : State} (notOwn : origin ≠ ownOctet s)
    (mine : target = ownOctet s) (noRequest : ∀ p, c ≠ .request p) (known : c ≠ .foreign) :
    takeFrame f target origin seq c s = countStray s := by
  unfold takeFrame
  rw [if_neg (by simpa using notOwn), if_pos (by simpa using mine)]
  split
  · next p => exact absurd rfl (noRequest p)
  · exact absurd rfl known
  · rfl

theorem takeFrame_of_others {f : RingFrame} {target origin seq : Byte} {c : Content} {s : State} (notOwn : origin ≠ ownOctet s)
    (notMine : target ≠ ownOctet s) : takeFrame f target origin seq c s = observe origin c (forward f s) := by
  unfold takeFrame
  rw [if_neg (by simpa using notOwn), if_neg (by simpa using notMine)]

/-- A frame's content is foreign exactly where its kind code is outside the eight. -/
theorem contentOf_eq_foreign_iff (kind seq : Byte) (p : List Byte) :
    contentOf kind seq p = .foreign ↔ kind = 0 ∨ 8 < kind.toNat := by
  have zero : kind = 0 ↔ kind.toNat = 0 := by rw [← BitVec.toNat_inj]; rfl
  unfold contentOf
  rw [zero]
  split <;> (try split) <;> simp <;> omega

theorem lengthOctet_frameOctets (target origin kind sequence : Byte) {payload : List Byte} (fits : payload.length ≤ 240) :
    lengthOctet (frameOctets target origin kind sequence payload) = payload.length := by
  have size : (BitVec.ofNat 8 payload.length).toNat = payload.length := by
    rw [BitVec.toNat_ofNat, Nat.mod_eq_of_lt (by omega)]
  exact size

/-- A frame built from its fields arrives as the command of those fields has it. -/
theorem receiveOctets_frameOctets (h : FrameHeader) (kind : Byte) {payload : List Byte} (fits : payload.length ≤ 240)
    (s : State) :
    receiveOctets (frameOctets h.target h.origin kind h.sequence payload) s =
      receiveObserved h kind payload (contentOf kind h.sequence payload) s := by
  have behind : ((frameOctets h.target h.origin kind h.sequence payload).drop 5).take payload.length = payload :=
    List.take_left
  cases active : s.passive with
  | true => simp only [receiveOctets, receiveObserved, active, if_true]
  | false =>
    rw [receiveOctets_of_passes active (passesCheck_frameOctets _ _ _ _ fits), lengthOctet_frameOctets _ _ _ _ fits, behind]
    simp only [receiveObserved, active]
    rfl

theorem forward_of_room {f : RingFrame} {s : State} (room : s.ri.forwarding.length < 2) :
    forward f s = { s with ri := { s.ri with forwarding := s.ri.forwarding ++ [f] } } := if_pos room

theorem forward_of_full {f : RingFrame} {s : State} (full : 2 ≤ s.ri.forwarding.length) :
    forward f s = { s with ri := { s.ri with overruns := min (2 ^ 32 - 1) (s.ri.overruns + 1) } } :=
  if_neg (Nat.not_lt.mpr full)

/-- Settles O7: the rows of R170 in `takeFrame`, and frames built from fields by `receiveOctets_frameOctets`. -/
theorem passingFrameIsTakenByFirstRow : Obligations.PassingFrameIsTakenByFirstRow := by
  refine ⟨?_, fun _ _ => ⟨forward_of_room, forward_of_full⟩, fun _ hi lo _ _ _ => ⟨rfl, rfl, rfl, rfl, fun _ => rfl,
    octetsOf_append hi lo⟩, fun _ => rfl, fun h p s fits => congrArg _ (receiveOctets_frameOctets h 6 fits s), ?_⟩
  · intro os s active passes
    have taken := receiveOctets_of_passes active passes
    refine ⟨fun own => congrArg _ (taken.trans (takeFrame_of_own own)), fun notOwn mine p request => ?_,
      fun notOwn mine low high noRequest => ?_, fun notOwn mine outside => ?_,
      fun notOwn notMine => congrArg _ (taken.trans (takeFrame_of_others notOwn notMine))⟩ <;>
      refine congrArg _ (taken.trans ?_)
    · rw [request, takeFrame_of_request p notOwn mine]
    · refine takeFrame_of_stray notOwn mine noRequest fun foreign => ?_
      obtain zero | beyond := (contentOf_eq_foreign_iff ..).mp foreign
      · rw [zero] at low
        exact absurd low (by decide)
      · omega
    · rw [(contentOf_eq_foreign_iff ..).mpr outside, takeFrame_of_foreign notOwn mine]
  · intro h hi lo hi' lo' d s
    have three (a b c : Byte) : [a, b, c].length ≤ 240 := by simp
    refine ⟨congrArg Host.Outcome.next ?_, congrArg Host.Outcome.next ?_, congrArg Host.Outcome.next ?_,
      congrArg Host.Outcome.next ?_⟩
    · rw [receiveOctets_frameOctets h 1 (three ..), octetsOf_append]; rfl
    · rw [receiveOctets_frameOctets h 2 (three ..), octetsOf_append]; rfl
    · rw [receiveOctets_frameOctets h 3 (by simp), octetsOf_append, octetsOf_append]; rfl
    · rw [receiveOctets_frameOctets h 4 (three ..), octetsOf_append]; rfl

/-! ## Observation (R171) -/

theorem roleSends_iff (r : Role) (kind : Nat) :
    roleSends r kind = true ↔ (kind = 1 ∧ r = .encoder) ∨ (kind = 2 ∧ r = .zone) ∨
      (kind = 3 ∧ r ≠ .supervisor ∧ r ≠ .panel) ∨ (kind = 4 ∧ r = .cutoff) := by
  simp only [roleSends, Bool.or_eq_true, Bool.and_eq_true, beq_iff_eq, bne_iff_ne, or_assoc]
  tauto

/-- A payload of another length than its kind's says nothing but its kind (Table 9-3). -/
theorem contentOf_of_wrongLength {kind : Byte} (low : 1 ≤ kind.toNat) (high : kind.toNat ≤ 4) (seq : Byte) {p : List Byte}
    (wrong : p.length ≠ if kind.toNat = 3 then 4 else 3) : contentOf kind seq p = .wrongLength kind.toNat := by
  unfold contentOf
  split <;> simp_all
  omega

/-- What a kind says is not looked at from a station whose role does not send the kind. -/
theorem observeFrom_of_not_sends {e : Station} {kind : Byte} (low : 1 ≤ kind.toNat) (high : kind.toNat ≤ 4)
    (sends : roleSends e.role kind.toNat = false) (i : Nat) (seq : Byte) (p : List Byte) (s : State) :
    observeFrom i e (contentOf kind seq p) s = s := by
  unfold contentOf
  split <;> simp_all [observeFrom, roleSends]
  omega

theorem observeFrom_of_unobserved {kind : Byte} (unobserved : kind = 0 ∨ 4 < kind.toNat) (i : Nat) (e : Station) (seq : Byte)
    (p : List Byte) (s : State) : observeFrom i e (contentOf kind seq p) s = s := by
  have zero : kind = 0 ↔ kind.toNat = 0 := by rw [← BitVec.toNat_inj]; rfl
  rw [zero] at unobserved
  unfold contentOf
  split <;> first | omega | rfl | (split <;> rfl)

@[simp] theorem stationAt_forward (f : RingFrame) (s : State) (address : Nat) :
    stationAt (forward f s) address = stationAt s address := by
  unfold forward
  split <;> rfl

/-- The octets between the header and the check are as many as the length octet says. -/
theorem length_payload_of_passes {os : List Byte} (passes : passesCheck os = true) :
    ((os.drop 5).take (lengthOctet os)).length = lengthOctet os := by
  rw [passesCheck, Bool.and_eq_true, lengthRight_iff] at passes
  rw [List.length_take, List.length_drop]
  omega

/-- What the model looks at of an entry when it looks for an address. -/
theorem stationAt_eq_none_iff (s : State) (address : Nat) :
    stationAt s address = none ↔ ∀ e, some e ∈ s.ri.stations → e.address ≠ address := by
  rw [stationAt, List.findSome?_eq_none_iff]
  constructor
  · intro none e mem same
    obtain ⟨i, found⟩ := List.getElem?_of_mem mem
    simpa [same] using none (some e, i) (List.mk_mem_zipIdx_iff_getElem?.mpr found)
  · rintro absent ⟨_ | e, i⟩ mem
    · rfl
    · simpa using absent e (List.mem_of_getElem? (List.mk_mem_zipIdx_iff_getElem?.mp mem))

/-- The entry found is the first with the address. -/
theorem stationAt_eq_some {s : State} {address i : Nat} {e : Station} (found : stationAt s address = some (i, e)) :
    s.ri.stations[i]? = some (some e) ∧ e.address = address ∧
      ∀ j < i, ∀ x, s.ri.stations[j]? = some (some x) → x.address ≠ address := by
  rw [stationAt, List.findSome?_eq_some_iff] at found
  obtain ⟨before, ⟨_ | r, n⟩, after, split, here, earlier⟩ := found
  · cases here
  · dsimp only at here
    split at here
    · next same =>
      cases here
      have at_ (j : Nat) (y : Option Station × Nat) (get : s.ri.stations.zipIdx[j]? = some y) :
          s.ri.stations[j]? = some y.1 ∧ y.2 = j := by
        rw [List.getElem?_zipIdx, Option.map_eq_some_iff] at get
        obtain ⟨z, entry, rfl⟩ := get
        exact ⟨entry, Nat.zero_add j⟩
      obtain ⟨entry, index⟩ := at_ before.length (some e, i) (by rw [split]; simp)
      subst index
      refine ⟨entry, by simpa using same, fun j lt x get => ?_⟩
      have mem : (some x, j) ∈ before := by
        have pair : s.ri.stations.zipIdx[j]? = some (some x, j) := by rw [List.getElem?_zipIdx, get]; simp
        rw [split, List.getElem?_append_left lt] at pair
        exact List.mem_of_getElem? pair
      simpa using earlier _ mem
    · cases here

theorem exec_octets_of_others {os : List Byte} {s : State} (active : s.passive = false) (passes : passesCheck os = true)
    (notOwn : os.getD 1 0 ≠ ownOctet s) (notMine : os.getD 0 0 ≠ ownOctet s) :
    exec (.receiveFrame (.octets os)) s = .next (observe (os.getD 1 0)
      (contentOf (os.getD 2 0) (os.getD 3 0) ((os.drop 5).take (lengthOctet os))) (forward (.octets os) s)) :=
  congrArg _ ((receiveOctets_of_passes active passes).trans (takeFrame_of_others notOwn notMine))

/-- Settles O8: what is observed goes by kind and role (`observeFrom_of_not_sends`), and a wrong length is a content of its own
(`contentOf_of_wrongLength`). -/
theorem wrongLengthIsMalformed : Obligations.WrongLengthIsMalformed := by
  refine ⟨?_, ?_, fun s address => ⟨stationAt_eq_none_iff s address, fun i e => stationAt_eq_some⟩, ?_⟩
  · intro os s active passes notOwn notMine kind size forwarded low high
    have observed := exec_octets_of_others active passes notOwn notMine
    refine ⟨fun absent => ?_, fun i e entry => ⟨fun silent => ?_, fun sends wrong => ?_⟩⟩ <;>
      refine observed.trans (congrArg _ ?_)
    · rw [observe, stationAt_forward, absent]
    · rw [observe, stationAt_forward, entry]
      exact observeFrom_of_not_sends low high (Bool.eq_false_iff.mpr fun sends => silent ((roleSends_iff ..).mp sends)) ..
    · rw [observe, stationAt_forward, entry,
        contentOf_of_wrongLength low high _ (by rw [length_payload_of_passes passes]; exact wrong)]
      exact if_pos ((roleSends_iff ..).mpr sends)
  · intro os s active passes notOwn notMine unobserved
    refine (exec_octets_of_others active passes notOwn notMine).trans (congrArg _ ?_)
    unfold observe
    split
    · exact observeFrom_of_unobserved unobserved ..
    · rfl
  · intro h a d i e s observes
    refine ⟨fun other => congrArg Host.Outcome.next ?_, fun other => congrArg Host.Outcome.next ?_,
      fun other => congrArg Host.Outcome.next ?_⟩ <;>
      refine (receiveObserved_of_observes observes ..).trans ?_ <;>
      exact if_neg (by simpa using other)

/-! ## The transmit pin and the report queue -/

theorem stationIn_of_first {s : State} {r : Role} {a b : List (Option Station)} {e : Station}
    (table : s.ri.stations = a ++ some e :: b) (role : e.role = r) (first : ∀ x, some x ∈ a → x.role ≠ r) :
    stationIn s r = some e := by
  rw [stationIn, List.findSome?_eq_some_iff]
  refine ⟨a, some e, b, table, by simp [role], ?_⟩
  rintro (_ | x) mem
  · rfl
  · simpa using first x mem

theorem stationIn_of_absent {s : State} {r : Role} (absent : ∀ x, some x ∈ s.ri.stations → x.role ≠ r) :
    stationIn s r = none := by
  rw [stationIn, List.findSome?_eq_none_iff]
  rintro (_ | x) mem
  · rfl
  · simpa using absent x mem

/-- Settles O9: the arms of `transmitNext` in their order, and the SUPERVISOR entry by `stationIn`. -/
theorem transmitTakesInOrder : Obligations.TransmitTakesInOrder := by
  refine ⟨fun s active => ?_, fun s => ⟨fun a e b table role first => ?_, fun absent => ?_⟩⟩
  · have pin : exec .transmit s = .next (transmitNext s) := by
      change Host.Outcome.next (if s.passive then s else transmitNext s) = _
      rw [active]
      rfl
    refine ⟨fun f t forwarding => ?_, fun d t forwarding directives => ?_, fun a t forwarding directives answers => ?_,
      fun r t forwarding directives answers reports => ?_, fun forwarding directives answers reports => ?_⟩ <;>
      refine pin.trans (congrArg _ ?_)
    · simp only [transmitNext, forwarding]
    · simp only [transmitNext, forwarding, directives, originate]
    · simp only [transmitNext, forwarding, directives, answers, originate]
    · simp only [transmitNext, forwarding, directives, answers, reports, transmitReport, originate]
    · simp only [transmitNext, forwarding, directives, answers, reports]
  · rw [reportTarget, stationIn_of_first table role first]; rfl
  · rw [reportTarget, stationIn_of_absent absent]; rfl

theorem report_of_room {s : State} (x : ReportBody) (room : s.ri.reports.length < 16) :
    report x s = { s with ri := { s.ri with
      reports := s.ri.reports ++ [⟨s.ri.reportNumber, s.pt.lineCount, x⟩], reportNumber := s.ri.reportNumber + 1 } } :=
  if_pos room

theorem report_of_full {s : State} (x : ReportBody) (full : 16 ≤ s.ri.reports.length) :
    report x s = { s with ri := { s.ri with
      reportsLost := min (2 ^ 32 - 1) (s.ri.reportsLost + 1), reportNumber := s.ri.reportNumber + 1 } } :=
  if_neg (Nat.not_lt.mpr full)

/-- Settles O10: a queue with room and a full one. -/
theorem reportTakesANumber : Obligations.ReportTakesANumber := fun x _ => ⟨report_of_room x, report_of_full x⟩

end Sys2Proof.Machine
end

section
/-! PROOFS. Line position and the drive request set: what a tally does (R7 to R13), and the stop holder set with the directives it
calls for (R15, R16, R179). -/

namespace Sys2Proof.Machine

/-! ## Tallies -/

/-- Settles O11: a TALLY of the ENCODER station is observed, and `takeTally` begins with the part state and the last sequence. -/
theorem tallyReachesTheTracker : Obligations.TallyReachesTheTracker := by
  refine ⟨fun h delta flags i e s observes encoder => congrArg Host.Outcome.next
    ((receiveObserved_of_observes observes ..).trans (if_pos (by simpa using encoder))), fun seq delta stopped s =>
    ⟨fun configuring => ?_, fun running same => ?_⟩⟩
  · simp only [takeTally, configuring]; rfl
  · simp [takeTally, running, same]

theorem takeTally_of_first {seq : Byte} {delta : Nat} {stopped : Bool} {s : State} (running : s.me.running = true)
    (first : s.pt.lastSeq = none) : takeTally seq delta stopped s = takeExpectedTally seq delta stopped s := by
  simp [takeTally, running, first]

theorem takeTally_of_next {seq last : Byte} {delta : Nat} {stopped : Bool} {s : State} (running : s.me.running = true)
    (held : s.pt.lastSeq = some last) (step : (seq - last).toNat = 1) :
    takeTally seq delta stopped s = takeExpectedTally seq delta stopped s := by
  simp [takeTally, running, held, step]

theorem takeTally_of_gap {seq last : Byte} {delta k : Nat} {stopped : Bool} {s : State} (running : s.me.running = true)
    (held : s.pt.lastSeq = some last) (lost : 1 ≤ k) (step : (seq - last).toNat = k + 1) :
    takeTally seq delta stopped s = takeExpectedTally seq delta stopped (takeGap k s) := by
  obtain ⟨d, rfl⟩ := Nat.exists_eq_add_of_le' lost
  simp [takeTally, running, held, step]

/-- What the line's tallies set and what they leave, of the Position Tracker and the part state. -/
structure TallyTaken (seq : Byte) (delta lost : Nat) (stopped : Bool) (s t : State) : Prop where
  lineCount : t.pt.lineCount = min (2 ^ 48 - 1) (s.pt.lineCount + delta)
  speed : t.pt.speed = delta * 60 / s.pt.geometry.tallyInterval
  stopped : t.pt.stopped = stopped
  lastSeq : t.pt.lastSeq = some seq
  lostTallies : s.pt.lostTallies ≤ 2 ^ 32 - 1 → t.pt.lostTallies = min (2 ^ 32 - 1) (s.pt.lostTallies + lost)
  geometry : t.pt.geometry = s.pt.geometry
  running : t.me.running = s.me.running

theorem TallyTaken.of_frame {seq : Byte} {delta lost : Nat} {stopped : Bool} {s t u : State}
    (taken : TallyTaken seq delta lost stopped s t) (frame : SameFrame t u) : TallyTaken seq delta lost stopped s u :=
  ⟨frame.lineCount.trans taken.lineCount, frame.speed.trans taken.speed, frame.stopped.trans taken.stopped,
    frame.lastSeq.trans taken.lastSeq, fun bounded => frame.lostTallies.trans (taken.lostTallies bounded),
    frame.geometry.trans taken.geometry, frame.running.trans taken.running⟩

/-- Steps 1 to 4 set the fields; the event of a changed stopped state, told before the sequence is set, keeps the frame. -/
theorem advance_taken (seq : Byte) (delta : Nat) (stopped : Bool) (s : State) :
    TallyTaken seq delta 0 stopped s (advance seq delta stopped s) := by
  have told := ((Works.refl { s with pt := { s.pt with
    lineCount := satAdd lineCountMax s.pt.lineCount delta, speed := tallySpeed s delta, stopped := stopped } }).stoppedChange
      (u := true) s.pt.stopped stopped).frame
  unfold advance
  dsimp only
  generalize stoppedChange s.pt.stopped stopped { s with pt := { s.pt with
    lineCount := satAdd lineCountMax s.pt.lineCount delta, speed := tallySpeed s delta, stopped := stopped } } = after at told
  have kept : TallyTaken seq delta 0 stopped s (setTallySeq seq after) :=
    ⟨told.lineCount, told.speed, told.stopped, rfl, fun bounded => told.lostTallies.trans (min_eq_right bounded).symm,
      told.geometry, told.running⟩
  split
  · exact kept.of_frame (works_report (q := .quiet) _ _).frame
  · exact kept

/-- The taking of a tally: what it hands the new count to keeps the frame. -/
theorem takeExpectedTally_taken (seq : Byte) (delta : Nat) (stopped : Bool) (s : State) :
    TallyTaken seq delta 0 stopped s (takeExpectedTally seq delta stopped s) :=
  (advance_taken seq delta stopped s).of_frame ((Works.refl _).handNewCount (u := true) delta).frame

/-- The gap of `k` lost tallies is counted, and the rest of its handling keeps the frame (R11). -/
theorem takeGap_frame (k : Nat) (s : State) :
    SameFrame { s with pt := { s.pt with lostTallies := min (2 ^ 32 - 1) (s.pt.lostTallies + k) } } (takeGap k s) := by
  have charged := (((Works.refl s).raiseUncertainty (k * s.pt.geometry.maxDelta)).chargeGap (u := true) (evaluate_works s)
    (k * s.pt.geometry.maxDelta)).frame
  unfold takeGap
  dsimp only
  generalize chargeGap evaluate (k * s.pt.geometry.maxDelta) (raiseUncertainty (k * s.pt.geometry.maxDelta) s) = after at charged
  refine SameFrame.trans ?_ ((Works.refl _).examineTracking (q := .quiet)).frame
  exact { charged with lostTallies := congrArg (fun n => bump n k) charged.lostTallies }

/-- The tallies lost before one of this sequence (R11). -/
def lostBefore (seq : Byte) (last : Option Byte) : Nat := (last.map fun l => (seq - l).toNat - 1).getD 0

/-- A tally taken in RUNNING that is no duplicate, with the lost tallies of its gap. -/
theorem takeTally_taken {seq : Byte} {s : State} (running : s.me.running = true) (fresh : s.pt.lastSeq ≠ some seq) (delta : Nat)
    (stopped : Bool) : TallyTaken seq delta (lostBefore seq s.pt.lastSeq) stopped s (takeTally seq delta stopped s) := by
  cases held : s.pt.lastSeq with
  | none =>
    rw [takeTally_of_first running held]
    exact takeExpectedTally_taken seq delta stopped s
  | some last =>
    have apart : (seq - last).toNat ≠ 0 := fun zero => fresh (by
      have same : seq - last = 0 := BitVec.eq_of_toNat_eq zero
      rw [held, sub_eq_zero.mp same])
    obtain one | ⟨k, lost, gap⟩ : (seq - last).toNat = 1 ∨ ∃ k, 1 ≤ k ∧ (seq - last).toNat = k + 1 := by
      by_cases one : (seq - last).toNat = 1
      · exact .inl one
      · exact .inr ⟨(seq - last).toNat - 1, by omega, by omega⟩
    · rw [takeTally_of_next running held one]
      rw [lostBefore, Option.map_some, Option.getD_some, one]
      exact takeExpectedTally_taken seq delta stopped s
    · rw [takeTally_of_gap running held lost gap]
      rw [lostBefore, Option.map_some, Option.getD_some, gap, Nat.add_sub_cancel]
      have counted := takeGap_frame k s
      have taken := takeExpectedTally_taken seq delta stopped (takeGap k s)
      refine ⟨?_, ?_, taken.stopped, taken.lastSeq, fun _ => ?_, taken.geometry.trans counted.geometry,
        taken.running.trans counted.running⟩
      · rw [taken.lineCount, counted.lineCount]
      · rw [taken.speed, counted.geometry]
      · have sum := counted.lostTallies
        rw [taken.lostTallies (sum.le.trans (min_le_left _ _)), sum]
        exact min_eq_right (min_le_left _ _)

/-! ## The largest uncertainty (R13) -/

theorem le_foldl_max (l : List Mark) (n : Nat) :
    n ≤ l.foldl (fun n m => max n m.uncertainty) n ∧
      ∀ m ∈ l, m.uncertainty ≤ l.foldl (fun n m => max n m.uncertainty) n := by
  induction l generalizing n with
  | nil => exact ⟨le_rfl, List.forall_mem_nil _⟩
  | cons x t ih =>
    obtain ⟨first, rest⟩ := ih (max n x.uncertainty)
    refine ⟨(le_max_left _ _).trans first, fun m mem => ?_⟩
    obtain rfl | later := List.mem_cons.mp mem
    · exact (le_max_right _ _).trans first
    · exact rest m later

theorem foldl_max_mem (l : List Mark) (n : Nat) :
    l.foldl (fun n m => max n m.uncertainty) n = n ∨ ∃ m ∈ l, m.uncertainty = l.foldl (fun n m => max n m.uncertainty) n := by
  induction l generalizing n with
  | nil => exact .inl rfl
  | cons x t ih =>
    rw [List.foldl_cons]
    obtain same | ⟨m, mem, value⟩ := ih (max n x.uncertainty)
    · obtain left | right := max_choice n x.uncertainty
      · exact .inl (same.trans left)
      · exact .inr ⟨x, List.mem_cons_self, (same.trans right).symm⟩
    · exact .inr ⟨m, List.mem_cons_of_mem x mem, value⟩

theorem le_largestUncertainty {s : State} {m : Mark} (mem : m ∈ s.sm.marks) : m.uncertainty ≤ largestUncertainty s :=
  (le_foldl_max s.sm.marks 0).2 m mem

/-- In a map with a mark the largest uncertainty is some mark's. -/
theorem exists_largestUncertainty {s : State} (marks : s.sm.marks ≠ []) :
    ∃ m ∈ s.sm.marks, m.uncertainty = largestUncertainty s := by
  obtain zero | found := foldl_max_mem s.sm.marks 0
  · obtain ⟨m, mem⟩ := List.exists_mem_of_ne_nil _ marks
    exact ⟨m, mem, Nat.le_antisymm (le_largestUncertainty mem) (zero.le.trans (Nat.zero_le _))⟩
  · exact found

/-- The mark named by the tracking report is the first that holds the largest uncertainty. -/
theorem mostUncertain_eq {s : State} (marks : s.sm.marks ≠ []) :
    ∃ a m b, s.sm.marks = a ++ m :: b ∧ m.uncertainty = largestUncertainty s ∧ mostUncertain s = m.id ∧
      ∀ x ∈ a, x.uncertainty < largestUncertainty s := by
  obtain ⟨y, mem, holds⟩ := exists_largestUncertainty marks
  cases found : s.sm.marks.find? fun m => m.uncertainty == largestUncertainty s with
  | none => exact absurd (beq_iff_eq.mpr holds) (List.find?_eq_none.mp found y mem)
  | some m =>
    obtain ⟨largest, a, b, split, before⟩ := List.find?_eq_some_iff_append.mp found
    refine ⟨a, m, b, split, beq_iff_eq.mp largest, by rw [mostUncertain, found]; rfl, fun x inA => ?_⟩
    have less : x.uncertainty ≠ largestUncertainty s := by simpa using before x inA
    exact lt_of_le_of_ne (le_largestUncertainty (split ▸ List.mem_append_left _ inA)) less

theorem examineTracking_eq (s : State) :
    examineTracking s =
      if largestUncertainty s ≤ s.pt.geometry.warnLimit then { s with pt := { s.pt with trackingWarned := false } }
      else if s.pt.trackingWarned = true then s
      else { report (.tracking (.uncertain (largestUncertainty s) (mostUncertain s) s.pt.geometry.warnLimit)) s with
        pt := { (report (.tracking (.uncertain (largestUncertainty s) (mostUncertain s) s.pt.geometry.warnLimit)) s).pt with
          trackingWarned := true } } := by
  unfold examineTracking
  by_cases within : largestUncertainty s ≤ s.pt.geometry.warnLimit
  · rw [if_pos within]
    exact if_neg (Nat.not_lt.mpr within)
  · rw [if_neg within]
    exact if_pos (Nat.not_le.mp within)

/-! ## The released length (R51) -/

theorem ordersNewCount_of_none {s : State} (none : currentOrder s = none) : ordersNewCount s = s := by
  simp only [ordersNewCount, none]

/-- The line count as the current order's released length sees it: not beyond the order's end. -/
def releasedReach (s : State) (o : Order) : WebPos := (o.endW.map (min (lineCount s))).getD (lineCount s)

theorem ordersNewCount_of_some {s : State} {o : Order} {w : WebPos} (current : currentOrder s = some o)
    (start : ∀ x ∈ s.os.orders, x.id = o.id → x.startW = some w) :
    ordersNewCount s = { s with os := { s.os with orders := s.os.orders.map fun x =>
      if x.id = o.id then { x with released := (releasedReach s o - w).toNat } else x } } := by
  simp only [ordersNewCount, current, modOrder, beq_iff_eq]
  congr 2
  refine List.map_congr_left fun x mem => ?_
  split
  · next same =>
    rw [start x mem same, releasedReach]
    cases o.endW <;> rfl
  · rfl

/-- The Management Engine is handed the new count in the state `u` that the other blocks leave (R9, step 5). -/
theorem handNewCount_eq {delta : Nat} {s u : State} {reached : Trigger → Bool}
    (handed : evaluate (ordersNewCount (splicesNewCount evaluate delta (zonesNewCount (mapNewCount takeRelease evaluate s)))) = u)
    (line : ∀ c, reached (.lineAt c) = decide (c ≤ u.pt.lineCount))
    (others : ∀ t, (∀ c, t ≠ .lineAt c) → reached t = false) : handNewCount delta s = handEvent reached u := by
  unfold handNewCount
  dsimp only
  rw [handed]
  refine congrArg (fun r => handEvent r u) (funext fun t => ?_)
  cases t with
  | lineAt c => exact (line c).symm
  | _ => exact (others _ (by simp)).symm

/-- Settles O12: the fields by `takeTally_taken`, the order of the hand-on as the model's own, the largest uncertainty and the
released length by their lemmas. -/
theorem takenTallyMovesTheLine : Obligations.TakenTallyMovesTheLine := by
  refine ⟨fun seq delta stopped s running fresh => ?_, fun seq delta stopped s => ?_, fun seq last delta stopped s running =>
    ⟨takeTally_of_first running, fun held => ⟨fun next => takeTally_of_next running held ?_, fun k lost gap =>
      takeTally_of_gap running held lost gap⟩⟩, fun s => ⟨fun m => le_largestUncertainty, fun empty => ?_, mostUncertain_eq⟩,
    examineTracking_eq, fun s => ⟨ordersNewCount_of_none, fun o w current start => ?_⟩⟩
  · have taken := takeTally_taken running fresh delta stopped
    refine ⟨taken.lineCount, taken.speed, taken.stopped, taken.lastSeq, fun bounded => (taken.lostTallies bounded).trans ?_,
      taken.geometry, taken.running.trans running⟩
    cases s.pt.lastSeq <;> rfl
  · intro moved told kept counted orders reached
    have stepped : advance seq delta stopped s = counted := by
      have changed : stoppedChange s.pt.stopped stopped moved = told := by
        unfold stoppedChange told
        simp only [beq_iff_eq]
      unfold advance counted kept
      rw [← changed]
      rfl
    rw [takeExpectedTally, stepped]
    refine handNewCount_eq (u := orders) rfl (fun _ => rfl) fun t other => ?_
    cases t with
    | lineAt c => exact absurd rfl (other c)
    | _ => rfl
  · rw [next, BitVec.add_comm, BitVec.add_sub_cancel]
    rfl
  · rw [largestUncertainty, empty]
    rfl
  · refine (ordersNewCount_of_some current start).trans ?_
    unfold releasedReach
    cases o.endW <;> rfl

/-! ## The directive queue (R179) -/

theorem isStop_iff (d : PlacedDirective) : isStop d = true ↔ d.directive = .lineRequest .stop := by
  unfold isStop
  split <;> simp_all

/-- STOP takes the place of a waiting LINE_REQUEST. -/
theorem replaces_stop (target : Nat) : replaces ⟨target, .lineRequest .stop⟩ = isLineRequest := by
  funext x
  unfold replaces isLineRequest
  cases x.directive <;> rfl

theorem enqueue_eq (d : PlacedDirective) (q : List PlacedDirective) :
    enqueue d q =
      if q.any (replaces d) = true then some (q.map fun x => if replaces d x = true then d else x)
      else if (d.directive = .lineRequest .stop ∧ q.length < 48) ∨ q.length + 2 ≤ 48 then some (q ++ [d])
      else none := by
  unfold enqueue Config.directiveCapacity
  simp only [Bool.and_eq_true, isStop_iff, decide_eq_true_eq]
  split
  · rfl
  · by_cases stop : d.directive = .lineRequest .stop ∧ q.length < 48
    · rw [if_pos stop, if_pos (.inl stop)]
    · rw [if_neg stop]
      simp only [stop, false_or]

/-- In a queue that keeps the laws an entry is always left for STOP: at most 47 others and at most one LINE_REQUEST wait. -/
theorem enqueue_stop {q : List PlacedDirective} (laws : DirectiveLaws q) (target : Nat) :
    enqueue ⟨target, .lineRequest .stop⟩ q =
      some (if q.any isLineRequest = true then
        q.map (fun x => if isLineRequest x = true then ⟨target, .lineRequest .stop⟩ else x)
        else q ++ [⟨target, .lineRequest .stop⟩]) := by
  rw [enqueue_eq, replaces_stop]
  split
  · rfl
  · next none =>
    have requests : q.filter isLineRequest = [] := List.filter_eq_nil_iff.mpr fun x mem is =>
      none (List.any_eq_true.mpr ⟨x, mem, is⟩)
    have total := length_filter_add isLineRequest q
    have others := laws.others
    rw [requests, List.length_nil] at total
    exact if_pos (.inl ⟨rfl, by omega⟩)

/-! ## The stop holder set (R15, R16) -/

theorem claimStop_of_held {c : StopCause} {s : State} (held : c ∈ s.pt.stop) : claimStop c s = s :=
  if_pos (List.contains_iff_mem.mpr held)

theorem claimStop_of_new {c : StopCause} {s : State} (new : c ∉ s.pt.stop) :
    claimStop c s = lineReport (if s.me.running then some .stop else none)
      (placeStop { s with pt := { s.pt with stop := s.pt.stop ++ [c] } }) :=
  if_neg fun found => new (List.contains_iff_mem.mp found)

theorem calledFor_of_stop {s : State} (stopped : s.pt.stop ≠ []) : calledFor s = none := by
  rw [calledFor, List.isEmpty_eq_false_iff.mpr stopped]
  rfl

theorem calledFor_of_noStop {s : State} (free : s.pt.stop = []) : calledFor s = some (startRequest s) := by
  unfold calledFor startRequest
  rw [free]
  cases heldLimit s.pt.slow <;> rfl

theorem startRequest_of_stop {s : State} (stopped : s.pt.stop ≠ []) : startRequest s = .stop :=
  if_neg (by simpa using stopped)

theorem driveChange_of_none {s : State} (silent : s.me.running = false ∨ s.pt.stop ≠ []) : driveChange s = lineReport none s := by
  have nothing : (if s.me.running then calledFor s else none) = none := by
    split
    · next running => exact calledFor_of_stop (silent.resolve_left (by simp [running]))
    · rfl
  unfold driveChange
  rw [nothing]

theorem driveChange_of_room {s : State} {r : LineRequest} {q : List PlacedDirective} (running : s.me.running = true)
    (called : calledFor s = some r) (room : enqueue (driveDirective s r) s.ri.directives = some q) :
    driveChange s = lineReport (some r) (setDirectives q s) := by
  simp only [driveChange, running, if_true, called, room]

theorem driveChange_of_full {s : State} {r : LineRequest} (running : s.me.running = true) (called : calledFor s = some r)
    (full : enqueue (driveDirective s r) s.ri.directives = none) :
    driveChange s = directiveOverflow (lineReport (some r) s) := by
  simp only [driveChange, running, if_true, called, full]

theorem placeStop_of_room {s : State} {q : List PlacedDirective} (running : s.me.running = true)
    (room : enqueue (driveDirective s .stop) s.ri.directives = some q) : placeStop s = setDirectives q s := by
  simp only [placeStop, running, if_true, room]

theorem placeStop_of_configuring {s : State} (configuring : s.me.running = false) : placeStop s = s := by
  simp only [placeStop, configuring, Bool.false_eq_true, if_false]

/-- Settles O15: STOP's entry by `enqueue_stop`, the rules of the queue by `enqueue_eq`, R16's table by `calledFor`. -/
theorem stopClaimPlacesStop : Obligations.StopClaimPlacesStop := by
  refine ⟨fun c s => ⟨claimStop_of_held, fun new running laws => ?_, fun new configuring => ?_⟩, fun q target laws => ?_,
    fun d q => enqueue_eq d q, fun _ => rfl, fun _ _ _ => rfl, fun s => ?_, fun r s => ⟨fun a e b table role first => ?_,
    fun absent => ?_⟩, fun _ _ _ => rfl⟩
  · refine ⟨_, enqueue_stop laws _, ?_⟩
    have placed : placeStop { s with pt := { s.pt with stop := s.pt.stop ++ [c] } } = _ :=
      placeStop_of_room running (enqueue_stop laws (roleAddress s .drive))
    rw [claimStop_of_new new, placed, running]
    rfl
  · have kept : placeStop { s with pt := { s.pt with stop := s.pt.stop ++ [c] } } = _ := placeStop_of_configuring configuring
    rw [claimStop_of_new new, kept, configuring]
    rfl
  · exact ⟨_, enqueue_stop laws target, laws.enqueue (enqueue_stop laws target), rfl⟩
  · intro wanted told
    have want (free : s.pt.stop = []) : startRequest s = wanted := by
      unfold startRequest wanted
      rw [free]
      cases heldLimit s.pt.slow <;> rfl
    refine ⟨?_, ?_⟩
    · split
      · next silent => exact driveChange_of_none silent
      · next loud =>
        rw [not_or, Bool.not_eq_false, not_not] at loud
        have called : calledFor s = some wanted := (calledFor_of_noStop loud.2).trans (congrArg some (want loud.2))
        split
        · next q room => exact driveChange_of_room loud.1 called room
        · next full => exact driveChange_of_full loud.1 called full
    · split
      · next free => exact want free
      · next held => exact startRequest_of_stop held
  · rw [roleAddress, stationIn_of_first table role first]; rfl
  · rw [roleAddress, stationIn_of_absent absent]; rfl

/-- Settles O16: the branches of `ruleClearStop`. -/
theorem clearStopRemovesACause : Obligations.ClearStopRemovesACause := by
  intro h src c s reaches
  have answer {x : Coded StopCause} {t : State} {reply : Reply} (rule : ruleClearStop x s = (t, reply)) :
      exec (.clearStop h (.fields x)) s = .next (answered h src 17 reply t) :=
    congrArg _ (receiveBody_of_rule reaches (b := .clearStop x) rfl rule)
  refine ⟨fun n => answer rfl, fun absent => answer (if_pos (by simpa using absent)), fun held cutout latched => answer ?_,
    fun held clear => answer ?_⟩
  · exact (if_neg (by simpa using held)).trans (if_pos (by simpa [cutout] using latched))
  · exact (if_neg (by simpa using held)).trans (if_neg (by simpa using clear))

end Sys2Proof.Machine
end

section
/-! PROOFS. The segment map: admission by tier, mark ids, candidates and merges (R25 to R29), shortening (R31), far edges, closing
and retirement (R21, R30, R33, R38, R39). -/

namespace Sys2Proof.Machine

/-! ## Tiers and mark ids -/

theorem refusedAtTier_eq_false_iff {s : State} {k : MarkKind} {n : Nat} (tier : tierOf k = some n) :
    refusedAtTier s k = false ↔ s.sm.marks.length < n := by
  rw [refusedAtTier, tier, decide_eq_false_iff_not, Nat.not_le]

theorem tierOf_defect {c : WindowCause} (defect : isDefect c = true) (src : Source) (x : Extent) :
    tierOf (.window c src x) = some 108 := by
  rw [tierOf, defect]
  rfl

theorem tierOf_process {c : WindowCause} (process : isDefect c = false) (src : Source) (x : Extent) :
    tierOf (.window c src x) = some 122 := by
  rw [tierOf, process]
  rfl

theorem admitMark_id (c : Claim) (unc : Nat) (s : State) :
    (admitMark c unc s).2.id = freshId (s.sm.marks.map (·.id)) s.sm.marks.length s.sm.nextId := rfl

/-- The id is found by counting up from the counter over ids that are held. -/
theorem admitMark_id_spec (c : Claim) (unc : Nat) (s : State) : ∃ j, (admitMark c unc s).2.id = s.sm.nextId + BitVec.ofNat 16 j ∧
    ∀ i < j, ∃ m ∈ s.sm.marks, m.id = s.sm.nextId + BitVec.ofNat 16 i := by
  obtain ⟨j, _, sum, held, _⟩ := freshId_spec (s.sm.marks.map (·.id)) s.sm.marks.length s.sm.nextId
  exact ⟨j, sum, fun i below => List.mem_map.mp (held i below)⟩

theorem admitMark_id_fresh (c : Claim) (unc : Nat) {s : State} (room : s.sm.marks.length < 65536) :
    ∀ m ∈ s.sm.marks, m.id ≠ (admitMark c unc s).2.id := by
  intro m mem same
  have notHeld := freshId_not_mem (used := s.sm.marks.map (·.id)) (by rwa [List.length_map]) s.sm.nextId
  rw [List.length_map, ← admitMark_id c unc, ← same] at notHeld
  exact notHeld (List.mem_map_of_mem mem)

theorem admitMark_id_of_free (c : Claim) (unc : Nat) {s : State} (free : ∀ m ∈ s.sm.marks, m.id ≠ s.sm.nextId) :
    (admitMark c unc s).2.id = s.sm.nextId := by
  obtain ⟨j, sum, held⟩ := admitMark_id_spec c unc s
  rcases Nat.eq_zero_or_pos j with rfl | pos
  · rw [sum]; exact BitVec.add_zero _
  · obtain ⟨m, mem, same⟩ := held 0 pos
    exact absurd (same.trans (BitVec.add_zero _)) (free m mem)

theorem admitMark_ids_below (c : Claim) (unc : Nat) (s : State) (d : Nat)
    (below : d < ((admitMark c unc s).2.id - s.sm.nextId).toNat) : ∃ m ∈ s.sm.marks, m.id = s.sm.nextId + BitVec.ofNat 16 d := by
  obtain ⟨j, sum, held⟩ := admitMark_id_spec c unc s
  refine held d (below.trans_le ?_)
  rw [sum, add_sub_cancel_left, BitVec.toNat_ofNat]
  exact Nat.mod_le _ _

/-- The new mark stands behind every mark whose w is at most its own. -/
theorem placeMark_split (m : Mark) (l : List Mark) : ∃ a b, l = a ++ b ∧ placeMark m l = a ++ m :: b ∧
    (∀ x ∈ a, x.w ≤ m.w) ∧ (l.Pairwise (fun x y => x.w ≤ y.w) → ∀ x ∈ b, m.w < x.w) := by
  refine ⟨_, _, List.takeWhile_append_dropWhile.symm, placeMark_eq m l, fun x mem => by simpa using List.mem_takeWhile_imp mem,
    fun ordered x mem => ?_⟩
  have behind := ordered.sublist (List.dropWhile_sublist (p := fun x => decide (x.w ≤ m.w)))
  cases rest : l.dropWhile (fun x => decide (x.w ≤ m.w)) with
  | nil => rw [rest] at mem; cases mem
  | cons y t =>
    have beyond : m.w < y.w := by
      have first := List.head_dropWhile_not (fun x : Mark => decide (x.w ≤ m.w)) (l := l) (by rw [rest]; simp)
      simpa [rest] using first
    rw [rest] at mem behind
    obtain rfl | later := List.mem_cons.mp mem
    · exact beyond
    · exact beyond.trans_le (List.rel_of_pairwise_cons behind later)

/-! ## Candidates (R28) -/

theorem isCandidate_iff (cause : WindowCause) (src : Source) (w : WebPos) (m : Mark) (s : State) :
    isCandidate s cause src w m = true ↔
      ∃ l, m.kind = .window cause src (.closed l) ∧ m.w ≤ w ∧ w ≤ m.w + l + s.pt.geometry.mergeGap ∧
        ∀ x ∈ s.sm.marks, x.id ≠ m.id → ¬(m.w + l < x.w ∧ x.w ≤ w) := by
  unfold isCandidate
  split
  · next c' src' l kind =>
    simp only [kind, Bool.and_eq_true, beq_iff_eq, decide_eq_true_eq, List.all_eq_true, Bool.or_eq_true, Bool.not_eq_true',
      Bool.and_eq_false_iff, decide_eq_false_iff_not, MarkKind.window.injEq, Extent.closed.injEq]
    constructor
    · rintro ⟨⟨⟨⟨rfl, rfl⟩, low⟩, high⟩, clear⟩
      exact ⟨l, ⟨rfl, rfl, rfl⟩, low, high, fun x mem other between => by
        obtain same | past | before := clear x mem
        · exact other same
        · exact past between.1
        · exact before between.2⟩
    · rintro ⟨l, ⟨rfl, rfl, rfl⟩, low, high, clear⟩
      exact ⟨⟨⟨⟨rfl, rfl⟩, low⟩, high⟩, fun x mem => or_iff_not_imp_left.mpr fun other =>
        Decidable.not_and_iff_or_not.mp (clear x mem other)⟩
  · next other => exact ⟨fun no => (Bool.false_ne_true no).elim, fun ⟨l, kind, _⟩ => (other _ _ l kind).elim⟩

/-- R28's order among candidates: the lesser far edge, or the same one and no later inserted. -/
def Outranked (s : State) (m e : Mark) : Prop :=
  farEdge s m < farEdge s e ∨ (farEdge s m = farEdge s e ∧ s.sm.insertion.idxOf m.id ≤ s.sm.insertion.idxOf e.id)

theorem Outranked.refl (s : State) (m : Mark) : Outranked s m m := .inr ⟨rfl, le_rfl⟩

theorem Outranked.trans {s : State} {a b c : Mark} (h : Outranked s a b) (k : Outranked s b c) : Outranked s a c := by
  obtain less | ⟨same, order⟩ := h <;> obtain less' | ⟨same', order'⟩ := k
  · exact .inl (less.trans less')
  · exact .inl (less.trans_eq same')
  · exact .inl (same.trans_lt less')
  · exact .inr ⟨same.trans same', order.trans order'⟩

/-- The better of two candidates is one of them and outranks both. -/
theorem betterCandidate_spec (s : State) (x y : Mark) :
    (betterCandidate s x y = x ∨ betterCandidate s x y = y) ∧
      Outranked s x (betterCandidate s x y) ∧ Outranked s y (betterCandidate s x y) := by
  unfold betterCandidate
  split
  · next less => exact ⟨.inr rfl, .inl less, .refl s y⟩
  · split
    · next greater => exact ⟨.inl rfl, .refl s x, .inl greater⟩
    · split
      · next edge edge' order => exact ⟨.inr rfl, .inr ⟨le_antisymm (not_lt.mp edge') (not_lt.mp edge), order⟩, .refl s y⟩
      · next edge edge' order =>
        exact ⟨.inl rfl, .refl s x, .inr ⟨le_antisymm (not_lt.mp edge) (not_lt.mp edge'), (not_le.mp order).le⟩⟩

/-- The best of a list of candidates is in the list and outranks every one in it. -/
theorem foldl_betterCandidate (s : State) (l : List Mark) (b : Mark) :
    l.foldl (betterCandidate s) b ∈ b :: l ∧ ∀ m ∈ b :: l, Outranked s m (l.foldl (betterCandidate s) b) := by
  induction l generalizing b with
  | nil => exact ⟨List.mem_cons_self, fun m mem => List.mem_singleton.mp mem ▸ .refl s b⟩
  | cons x t ih =>
    obtain ⟨mem, rank⟩ := ih (betterCandidate s b x)
    obtain ⟨one, first, second⟩ := betterCandidate_spec s b x
    have top := rank _ List.mem_cons_self
    rw [List.foldl_cons]
    refine ⟨?_, fun m mem => ?_⟩
    · obtain best | later := List.mem_cons.mp mem
      · rw [best]
        obtain same | same := one <;> rw [same] <;> simp
      · exact List.mem_cons_of_mem _ (List.mem_cons_of_mem _ later)
    · obtain rfl | mem := List.mem_cons.mp mem
      · exact first.trans top
      · obtain rfl | later := List.mem_cons.mp mem
        · exact second.trans top
        · exact rank m (List.mem_cons_of_mem _ later)

theorem mergeCandidate_of_nil {cause : WindowCause} {src : Source} {w : WebPos} {s : State}
    (candidates : s.sm.marks.filter (isCandidate s cause src w) = []) : mergeCandidate s cause src w = none := by
  rw [mergeCandidate, candidates]
  rfl

theorem mergeCandidate_of_cons {cause : WindowCause} {src : Source} {w : WebPos} {s : State} {b : Mark} {l : List Mark}
    (candidates : s.sm.marks.filter (isCandidate s cause src w) = b :: l) :
    mergeCandidate s cause src w = some (l.foldl (betterCandidate s) b) := by
  rw [mergeCandidate, candidates, List.foldl_cons]
  clear candidates
  induction l generalizing b with
  | nil => rfl
  | cons x t ih => exact ih (b := betterCandidate s b x)

theorem mergeCandidate_eq_none_iff (cause : WindowCause) (src : Source) (w : WebPos) (s : State) :
    mergeCandidate s cause src w = none ↔ ∀ m ∈ s.sm.marks, isCandidate s cause src w m = false := by
  simp only [← Bool.not_eq_true, ← List.filter_eq_nil_iff]
  cases candidates : s.sm.marks.filter (isCandidate s cause src w) with
  | nil => simp only [mergeCandidate_of_nil candidates]
  | cons b l => simp [mergeCandidate_of_cons candidates]

theorem mergeCandidate_eq_some {cause : WindowCause} {src : Source} {w : WebPos} {s : State} {e : Mark}
    (found : mergeCandidate s cause src w = some e) : e ∈ s.sm.marks ∧ isCandidate s cause src w e = true ∧
      ∀ m ∈ s.sm.marks, isCandidate s cause src w m = true → Outranked s m e := by
  cases candidates : s.sm.marks.filter (isCandidate s cause src w) with
  | nil => rw [mergeCandidate_of_nil candidates] at found; cases found
  | cons b l =>
    rw [mergeCandidate_of_cons candidates, Option.some.injEq] at found
    obtain ⟨mem, rank⟩ := foldl_betterCandidate s l b
    rw [found, ← candidates] at mem rank
    obtain ⟨inMap, candidate⟩ := List.mem_filter.mp mem
    exact ⟨inMap, candidate, fun m mem' passes => rank m (List.mem_filter.mpr ⟨mem', passes⟩)⟩

/-! ## The merge and the steps of an insertion claim (R25, R29) -/

/-- A merge into a closed window reaches at least as far as the window did, and is cut off at the largest length. -/
theorem mergeInto_closed {e : Mark} {cause : WindowCause} {src : Source} {old : Nat}
    (kind : e.kind = .window cause src (.closed old)) (l : Nat) (w : WebPos) (unc : Nat) (s : State) :
    let len : Int := max old (w + l - e.w)
    let changed := fun m : Mark =>
      { m with kind := .window cause src (.closed (min len.toNat 16777215)), uncertainty := max e.uncertainty unc }
    mergeInto e cause src (.closed l) w unc s = takeNotice (changed e)
      (if 16777215 < len.toNat then report (.map (.truncated e.id cause src (e.w + 16777216) (e.w + len))) (modMark e.id changed s)
        else modMark e.id changed s) := by
  have reach : farEdge s e - e.w = old := by
    simp only [farEdge, kind]
    exact add_sub_cancel_left ..
  unfold mergeInto
  dsimp only
  rw [reach]
  unfold reportTruncated
  have behind : e.w + (windowLengthMax : Int) + 1 = e.w + 16777216 := Int.add_assoc ..
  rw [behind]

theorem insertCore_of_configuring {c : Claim} {s : State} (configuring : s.me.running = false) :
    insertCore c s = (s, .refused, false) := by
  unfold insertCore
  rw [configuring]
  rfl

theorem claimCandidate_of_window {c : Claim} {s : State} {cause : WindowCause} {src : Source} {ext : Extent}
    (kind : c.kind = .window cause src ext) (defect : isDefect cause = true) :
    claimCandidate s c = (mergeCandidate s cause src c.w).map fun e => (e, cause, src, ext) := by
  unfold claimCandidate
  rw [kind]
  exact if_pos defect

/-- A claim that finds no candidate: no window, a process window, or a defect window without one. -/
theorem claimCandidate_eq_none {c : Claim} {s : State} (free : ∀ cause src ext, c.kind = .window cause src ext →
    isDefect cause = true → mergeCandidate s cause src c.w = none) : claimCandidate s c = none := by
  unfold claimCandidate
  split
  · next cause src ext kind =>
    split
    · next defect => rw [free cause src ext kind defect]; rfl
    · rfl
  · rfl

theorem insertCore_of_candidate {c : Claim} {s : State} {cause : WindowCause} {src : Source} {ext : Extent} {e : Mark}
    (running : s.me.running = true) (kind : c.kind = .window cause src ext) (defect : isDefect cause = true)
    (found : mergeCandidate s cause src c.w = some e) :
    insertCore c s = ((mergeInto e cause src ext c.w (claimUncertainty s c.uncertainty) s).1, .merged e.id,
      (mergeInto e cause src ext c.w (claimUncertainty s c.uncertainty) s).2) := by
  unfold insertCore
  rw [running, claimCandidate_of_window kind defect, found]
  rfl

theorem insertCore_of_refused {c : Claim} {s : State} (running : s.me.running = true) (free : claimCandidate s c = none)
    (full : refusedAtTier s c.kind = true) : insertCore c s = (reportUntracked c s, .refused, false) := by
  unfold insertCore
  rw [running, free]
  exact if_pos full

theorem insertCore_of_admitted {c : Claim} {s : State} (running : s.me.running = true) (free : claimCandidate s c = none)
    (room : refusedAtTier s c.kind = false) :
    insertCore c s =
      let a := admitMark c (claimUncertainty s c.uncertainty) s
      ((takeNotice a.2 a.1).1, .admitted a.2.id, (takeNotice a.2 a.1).2) := by
  unfold insertCore
  rw [running, free]
  exact if_neg (Bool.eq_false_iff.mp room)

theorem reportUntracked_of_window {c : Claim} {cause : WindowCause} {src : Source} {ext : Extent}
    (kind : c.kind = .window cause src ext) (s : State) : reportUntracked c s =
      report (.map (.untracked cause src c.w ext s.sm.marks.length (if isDefect cause = true then 108 else 122))) s := by
  simp only [reportUntracked, kind]
  rfl

theorem reportUntracked_of_other {c : Claim} (other : ∀ cause src ext, c.kind ≠ .window cause src ext) (s : State) :
    reportUntracked c s = s := by
  unfold reportUntracked
  split
  · next cause src ext kind => exact absurd kind (other cause src ext)
  · rfl

/-- Settles O18: tiers and ids, the place of an admitted mark, candidates and the merge, and the steps of a claim. -/
theorem admissionTiersAndMarkIds : Obligations.AdmissionTiersAndMarkIds := by
  refine ⟨fun s => ⟨fun cause src ext defect => refusedAtTier_eq_false_iff (tierOf_defect defect src ext),
      fun cause src ext process => refusedAtTier_eq_false_iff (tierOf_process process src ext),
      fun _ _ _ => refusedAtTier_eq_false_iff rfl, fun _ => rfl⟩,
    fun cause => by cases cause <;> simp [isDefect],
    fun c unc s room => ⟨admitMark_id_fresh c unc room, admitMark_id_of_free c unc, admitMark_ids_below c unc s, rfl⟩,
    fun c unc s => ?_, isCandidate_iff,
    fun cause src w s => ⟨mergeCandidate_eq_none_iff cause src w s, fun e => mergeCandidate_eq_some⟩,
    fun e cause src w unc s => ⟨rfl, fun old l kind => mergeInto_closed kind l w unc s⟩, fun c s => ?_, fun ev c s => ?_⟩
  · obtain ⟨a, b, split, placed, before, behind⟩ := placeMark_split (admitMark c unc s).2 s.sm.marks
    refine ⟨a, b, split, ?_, before, behind⟩
    exact congrArg (fun marks => (({ s with sm := { s.sm with
      marks := marks, insertion := s.sm.insertion ++ [(admitMark c unc s).2.id],
      nextId := (admitMark c unc s).2.id + 1 } } : State), (admitMark c unc s).2)) placed
  · refine ⟨insertCore_of_configuring, fun cause src ext e running kind defect found => ?_, fun running free =>
      ⟨fun full => ?_, fun room => ?_⟩⟩
    · refine (insertCore_of_candidate running kind defect found).trans ?_
      cases c.uncertainty <;> rfl
    · refine (insertCore_of_refused running (claimCandidate_eq_none free) full).trans
        (congrArg (fun t => (t, InsertOutcome.refused, false)) ?_)
      cases kind : c.kind with
      | window cause src ext => exact reportUntracked_of_window kind s
      | joint k => exact reportUntracked_of_other (by simp [kind]) s
      | boundary m n taken => exact reportUntracked_of_other (by simp [kind]) s
    · refine (insertCore_of_admitted running (claimCandidate_eq_none free) room).trans ?_
      cases c.uncertainty <;> rfl
  · cases outcome : (insertCore c s).2.1 <;> simp only [insertMark, outcome]

/-! ## Shortening (R31) and the creator's own window (R34) -/

theorem ownWindow_of_own {s : State} {id : MarkId} {mine : WindowCause → Source → Bool} {m : Mark} {c : WindowCause} {src : Source}
    {x : Extent} (found : markOf s id = some m) (kind : m.kind = .window c src x) (own : mine c src = true) :
    ownWindow s id mine = some (m, c, src, x) := by
  simp only [ownWindow, found, kind, own, if_true]

/-- What an answer of the search says of the mark. -/
theorem ownWindow_eq_some {s : State} {id : MarkId} {mine : WindowCause → Source → Bool} {m : Mark} {c : WindowCause} {src : Source}
    {x : Extent} (found : ownWindow s id mine = some (m, c, src, x)) :
    markOf s id = some m ∧ m.kind = .window c src x ∧ mine c src = true := by
  unfold ownWindow at found
  split at found
  · cases found
  · next m' here =>
    split at found
    · next kind =>
      split at found
      · next own => cases found; exact ⟨here, kind, own⟩
      · cases found
    · cases found

theorem ownWindow_eq_none {s : State} {id : MarkId} {mine : WindowCause → Source → Bool}
    (others : ∀ m c src x, markOf s id = some m → m.kind = .window c src x → mine c src = false) : ownWindow s id mine = none := by
  cases found : ownWindow s id mine with
  | none => rfl
  | some w =>
    obtain ⟨m, c, src, x⟩ := w
    obtain ⟨here, kind, own⟩ := ownWindow_eq_some found
    exact absurd own (by rw [others m c src x here kind]; exact Bool.false_ne_true)

theorem modMark_eq (s : State) (id : MarkId) (f : Mark → Mark) : modMark id f s =
    { s with sm := { s.sm with marks := s.sm.marks.map fun m => if m.id = id then f m else m } } := by
  simp only [modMark, beq_iff_eq]

/-- Settles O19: the zone's own TRANSITION window, closed, is the one case in which the claim changes a mark. -/
theorem shorteningNeverLengthens : Obligations.ShorteningNeverLengthens := by
  intro id zone length s
  refine ⟨fun m l found kind => ?_, fun other => ?_⟩ <;> unfold shortenWindow
  · rw [ownWindow_of_own found kind (by simp)]
    exact modMark_eq ..
  · split
    · next m c src l own =>
      obtain ⟨found, kind, mine⟩ := ownWindow_eq_some own
      obtain ⟨rfl, rfl⟩ : c = .transition ∧ src = .zone zone := by simpa using mine
      exact absurd kind (other m l found)
    · rfl

/-! ## Closing and retirement (R30, R33, R38, R39) -/

theorem isOpen_eq_false_iff (m : Mark) : m.isOpen = false ↔ ∀ c src, m.kind ≠ .window c src .openEnded := by
  unfold Mark.isOpen
  split <;> simp_all

theorem isBoundary_iff (m : Mark) : m.isBoundary = true ↔ ∃ c n taken, m.kind = .boundary c n taken := by
  unfold Mark.isBoundary
  split <;> simp_all

/-- Past the gate a mark's extent lies behind all board that can still be cut. -/
theorem overlaps_of_passed {s : State} {m : Mark} {a b : WebPos} (passed : hasPassed s m = true)
    (beyond : lineCount s - s.pt.geometry.gateOffset ≤ a) : overlaps s m a b = false := by
  have high := ((hasPassed_iff s m).mp passed).2.trans_le beyond
  simp only [overlaps, Bool.and_eq_false_iff, decide_eq_false_iff_not, not_lt]
  exact .inr high.le

theorem retire_of_window {ev : State → State} {m : Mark} {c : WindowCause} {src : Source} {x : Extent} {s : State}
    (kind : m.kind = .window c src x) : retire ev m s = dropCredit m.id (examineTracking (noticeRoom ev (dropMark m.id s))) := by
  simp only [retire, Mark.isBoundary, kind, Bool.false_eq_true, if_false]

theorem retire_of_joint {ev : State → State} {m : Mark} {k : Nat} {s : State} (kind : m.kind = .joint k) :
    retire ev m s = dropCredit m.id (examineTracking (noticeRoom ev (jointRetired ev k (dropMark m.id s)))) := by
  simp only [retire, Mark.isBoundary, kind, Bool.false_eq_true, if_false]

theorem retire_of_boundary {ev : State → State} {m : Mark} {c : Option OrderId} {n : OrderId} {taken : List Threshold} {s : State}
    (kind : m.kind = .boundary c n taken) :
    retire ev m s = planRetired m.id (dropCredit m.id (examineTracking (noticeRoom ev (dropMark m.id s)))) := by
  simp only [retire, Mark.isBoundary, kind, if_true]

theorem removeBoundary_of_boundary {ev : State → State} {id : MarkId} {m : Mark} {c : Option OrderId} {n : OrderId}
    {taken : List Threshold} {s : State} (found : markOf s id = some m) (kind : m.kind = .boundary c n taken) :
    removeBoundary ev id s = (examineTracking (noticeRoom ev (dropMark id s)), some taken) := by
  simp only [removeBoundary, found, kind]

theorem removeBoundary_of_other {ev : State → State} {id : MarkId} {s : State}
    (other : ∀ m c n taken, markOf s id = some m → m.kind ≠ .boundary c n taken) : removeBoundary ev id s = (s, none) := by
  unfold removeBoundary
  split
  · rfl
  · next m found =>
    split
    · next kind => exact absurd kind (other m _ _ _ found)
    · rfl

theorem planRetired_eq (id : MarkId) (s : State) [Decidable (∃ e ∈ s.cs.plan, e.mark = id)] : planRetired id s =
    if ∃ e ∈ s.cs.plan, e.mark = id then { s with cs := { s.cs with
      plan := s.cs.plan.filter fun e => e.mark != id,
      counters := { s.cs.counters with missedTrims := min (2 ^ 32 - 1) (s.cs.counters.missedTrims + 1) } } }
    else s := by
  have same : s.cs.plan.any (fun e => e.mark == id) = true ↔ ∃ e ∈ s.cs.plan, e.mark = id := by simp
  unfold planRetired
  by_cases planned : ∃ e ∈ s.cs.plan, e.mark = id
  · rw [if_pos (same.mpr planned), if_pos planned]
    rfl
  · rw [if_neg (same.not.mpr planned), if_neg planned]

theorem closeWindow_of_none {ev : State → State} {id : MarkId} {mine : WindowCause → Source → Bool} {s : State}
    (absent : ownWindow s id mine = none) (far : Option WebPos) : closeWindow ev id mine far s = (s, none) := by
  simp only [closeWindow, absent]

theorem closeWindow_of_closed {ev : State → State} {id : MarkId} {mine : WindowCause → Source → Bool} {s : State} {m : Mark}
    {c : WindowCause} {src : Source} {l : Nat} (own : ownWindow s id mine = some (m, c, src, .closed l)) (far : Option WebPos) :
    closeWindow ev id mine far s = (s, some l) := by
  simp only [closeWindow, own]

theorem closeWindow_of_open {ev : State → State} {id : MarkId} {mine : WindowCause → Source → Bool} {s : State} {m : Mark}
    {c : WindowCause} {src : Source} (own : ownWindow s id mine = some (m, c, src, .openEnded)) (far : Option WebPos) :
    let edge := far.getD (farEdge s m)
    let len := (edge - m.w).toNat
    let closed := modMark id (fun x => { x with kind := .window c src (.closed (min len 16777215)) }) s
    closeWindow ev id mine far s = (testRetirement ev id
      (if 16777215 < len then report (.map (.truncated m.id c src (m.w + 16777216) edge)) closed else closed),
      some (min len 16777215)) := by
  have behind : m.w + (windowLengthMax : Int) + 1 = m.w + 16777216 := Int.add_assoc ..
  simp only [closeWindow, own, reportTruncated]
  rw [behind]

/-- Settles O20: a passed extent lies behind the gate, and the notices of each kind of mark are those of `retire`. -/
theorem retirementTestAndNotices : Obligations.RetirementTestAndNotices := by
  refine ⟨fun s m a b => overlaps_of_passed, fun _ _ _ _ => ⟨fun _ _ _ => rfl, fun _ => rfl, fun _ _ _ => rfl, fun _ _ => rfl,
      fun _ _ => rfl, fun _ _ => rfl⟩,
    fun s => ⟨rfl, rfl, fun n z found => by rw [zoneOffset, found]; rfl, fun k r found => by rw [standOffset, found]; rfl⟩,
    fun _ _ => rfl, modMark_eq, fun s m => by rw [hasPassed_iff, isOpen_eq_false_iff], fun _ _ _ => rfl, fun _ _ => rfl,
    fun ev s => ⟨fun m c src x => retire_of_window, fun m k => retire_of_joint, fun m c n taken => retire_of_boundary,
      fun id m c n taken => removeBoundary_of_boundary, fun id => removeBoundary_of_other⟩,
    fun id s => planRetired_eq id s, fun ev id mine far s => ⟨fun others => closeWindow_of_none (ownWindow_eq_none others) far,
      fun m c src l found kind own => closeWindow_of_closed (ownWindow_of_own found kind own) far,
      fun m c src found kind own => closeWindow_of_open (ownWindow_of_own found kind own) far⟩⟩

end Sys2Proof.Machine
end

section
/-! PROOFS. The thresholds of a boundary: their values and their order (Table 2-4, R37), the lead bounds that keep them ahead of the
line count at a commit (R36), and their dispatch (R35). -/

namespace Sys2Proof.Machine

/-! ## The thresholds and their values -/

/-- The line count at which a threshold falls (Table 2-4). -/
def thresholdValue (s : State) (w : WebPos) : Threshold → Int
  | .release => w
  | .zone n => w + zoneOffset s n - (((zoneOf s n).map (·.rampLead)).getD 0 : Nat)
  | .knifeApproach .a => w + s.pt.geometry.knifeAOffset - s.pt.geometry.knifeLead
  | .knifeArrival .a => w + s.pt.geometry.knifeAOffset
  | .knifeApproach .b => w + s.pt.geometry.knifeBOffset - s.pt.geometry.knifeLead
  | .knifeArrival .b => w + s.pt.geometry.knifeBOffset
  | .cutoff => w + s.pt.geometry.cutoffOffset - s.pt.geometry.cutoffLead

/-- The row of a threshold in Table 2-4, and the zone number within it. -/
def thresholdRow : Threshold → Nat × Nat
  | .release => (0, 0)
  | .zone n => (1, n)
  | .knifeApproach .a => (2, 0)
  | .knifeArrival .a => (3, 0)
  | .knifeApproach .b => (4, 0)
  | .knifeArrival .b => (5, 0)
  | .cutoff => (6, 0)

/-- A threshold stands in an earlier row, or in the same row for a lower zone. -/
def RowBefore (x y : Threshold) : Prop :=
  (thresholdRow x).1 < (thresholdRow y).1 ∨
    ((thresholdRow x).1 = (thresholdRow y).1 ∧ (thresholdRow x).2 < (thresholdRow y).2)

theorem mem_placedZones_iff (s : State) (n : Nat) : n ∈ placedZones s ↔ ∃ z, zoneOf s n = some z ∧ z.placed = true := by
  simp only [placedZones, List.mem_filter, List.mem_range]
  cases found : zoneOf s n with
  | none => simp
  | some z =>
    have inRange : n < s.zr.zones.length := (List.getElem?_eq_some_iff.mp found).1
    simp [inRange]

theorem pairwise_placedZones (s : State) : (placedZones s).Pairwise (· < ·) := List.pairwise_lt_range.filter _

theorem mem_boundaryThresholds_iff (s : State) (w : WebPos) (f : Falling) :
    f ∈ boundaryThresholds s w ↔
      f.value = thresholdValue s w f.threshold ∧ ∀ n, f.threshold = .zone n → n ∈ placedZones s := by
  obtain ⟨v, t⟩ := f
  simp only [boundaryThresholds, List.mem_append, List.mem_map, List.mem_cons, List.not_mem_nil, or_false, Falling.mk.injEq]
  rcases t with _ | n | (_ | _) | (_ | _) | _ <;> simp [thresholdValue]
  constructor
  · rintro ⟨placed, rfl⟩
    exact ⟨rfl, placed⟩
  · rintro ⟨rfl, placed⟩
    exact ⟨placed, rfl⟩

/-- The thresholds are listed in the order of the table's rows, zones by number. -/
theorem pairwise_boundaryThresholds (s : State) (w : WebPos) :
    (boundaryThresholds s w).Pairwise fun x y => RowBefore x.threshold y.threshold := by
  simp only [boundaryThresholds, List.pairwise_append, List.pairwise_cons, List.pairwise_map, List.mem_append, List.mem_map,
    List.mem_cons, List.not_mem_nil, or_false]
  refine ⟨⟨⟨by simp, List.Pairwise.nil⟩, (pairwise_placedZones s).imp fun less => .inr ⟨rfl, less⟩, ?_⟩, ?_, ?_⟩
  · rintro x rfl y ⟨n, _, rfl⟩
    exact .inl Nat.zero_lt_one
  · simp [RowBefore, thresholdRow]
  · rintro x (rfl | ⟨n, _, rfl⟩) y (rfl | rfl | rfl | rfl | rfl) <;> exact .inl (by simp [thresholdRow])

/-! ## Ascending order of value (R37) -/

theorem mem_placeFalling (x y : Falling) (l : List Falling) : y ∈ placeFalling x l ↔ y = x ∨ y ∈ l := by
  induction l with
  | nil => simp [placeFalling]
  | cons z t ih =>
    unfold placeFalling
    split
    · rw [List.mem_cons, ih, List.mem_cons, or_left_comm]
    · rw [List.mem_cons]

/-- A lesser value, or the same value and an earlier row. -/
def TakenBefore (x y : Falling) : Prop :=
  x.value < y.value ∨ (x.value = y.value ∧ RowBefore x.threshold y.threshold)

/-- A threshold of a later row than those placed goes behind the ones of its value. -/
theorem pairwise_placeFalling {x : Falling} {l : List Falling} (sorted : l.Pairwise TakenBefore)
    (earlier : ∀ y ∈ l, RowBefore y.threshold x.threshold) : (placeFalling x l).Pairwise TakenBefore := by
  induction l with
  | nil => exact List.pairwise_singleton _ _
  | cons y t ih =>
    obtain ⟨first, rest⟩ := List.pairwise_cons.mp sorted
    unfold placeFalling
    split
    · next le =>
      refine List.pairwise_cons.mpr ⟨fun z mem => ?_, ih rest fun z mem => earlier z (List.mem_cons_of_mem y mem)⟩
      obtain rfl | mem := (mem_placeFalling x z t).mp mem
      · exact (lt_or_eq_of_le le).imp_right fun same => ⟨same, earlier y List.mem_cons_self⟩
      · exact first z mem
    · next greater =>
      refine List.pairwise_cons.mpr ⟨fun z mem => .inl ?_, sorted⟩
      obtain rfl | mem := List.mem_cons.mp mem
      · exact not_le.mp greater
      · obtain less | ⟨same, _⟩ := first z mem
        · exact (not_le.mp greater).trans less
        · exact same ▸ not_le.mp greater

theorem foldl_placeFalling {l acc : List Falling} (sorted : acc.Pairwise TakenBefore)
    (rows : l.Pairwise fun x y => RowBefore x.threshold y.threshold)
    (earlier : ∀ y ∈ acc, ∀ x ∈ l, RowBefore y.threshold x.threshold) :
    (l.foldl (fun acc x => placeFalling x acc) acc).Pairwise TakenBefore ∧
      ∀ f, f ∈ l.foldl (fun acc x => placeFalling x acc) acc ↔ f ∈ acc ∨ f ∈ l := by
  induction l generalizing acc with
  | nil => exact ⟨sorted, fun f => by simp⟩
  | cons x t ih =>
    obtain ⟨first, rest⟩ := List.pairwise_cons.mp rows
    obtain ⟨ordered, members⟩ := ih (pairwise_placeFalling sorted fun y mem => earlier y mem x List.mem_cons_self) rest
      fun y mem z memT => by
        obtain rfl | mem := (mem_placeFalling x y acc).mp mem
        · exact first z memT
        · exact earlier y mem z (List.mem_cons_of_mem x memT)
    refine ⟨ordered, fun f => (members f).trans ?_⟩
    rw [mem_placeFalling, List.mem_cons]
    tauto

/-- The reached thresholds are those not taken whose value the line count has reached. -/
theorem mem_reachedThresholds_iff (s : State) (w : WebPos) (taken : List Threshold) (t : Threshold) :
    t ∈ reachedThresholds s w taken ↔
      t ∉ taken ∧ thresholdValue s w t ≤ lineCount s ∧ ∀ n, t = .zone n → n ∈ placedZones s := by
  have members := (foldl_placeFalling List.Pairwise.nil ((pairwise_boundaryThresholds s w).filter fun f =>
    !taken.contains f.threshold && decide (f.value ≤ lineCount s)) (by simp)).2
  simp only [reachedThresholds, sortFalling, List.mem_map, members, List.mem_filter, mem_boundaryThresholds_iff]
  constructor
  · rintro ⟨f, (none | ⟨⟨value, zones⟩, open_⟩), rfl⟩
    · cases none
    · simp only [value, Bool.and_eq_true, Bool.not_eq_true', List.contains_eq_mem, decide_eq_false_iff_not,
        decide_eq_true_eq] at open_
      exact ⟨open_.1, open_.2, zones⟩
  · rintro ⟨notTaken, reached, zones⟩
    exact ⟨⟨thresholdValue s w t, t⟩, .inr ⟨⟨rfl, zones⟩, by simp [notTaken, reached]⟩, rfl⟩

/-- They are taken in ascending order of value, those of one value in the order of the table's rows. -/
theorem pairwise_reachedThresholds (s : State) (w : WebPos) (taken : List Threshold) :
    (reachedThresholds s w taken).Pairwise fun x y => thresholdValue s w x < thresholdValue s w y ∨
      (thresholdValue s w x = thresholdValue s w y ∧ RowBefore x y) := by
  obtain ⟨ordered, members⟩ := foldl_placeFalling List.Pairwise.nil ((pairwise_boundaryThresholds s w).filter fun f =>
    !taken.contains f.threshold && decide (f.value ≤ lineCount s)) (by simp)
  have value {f : Falling} (mem : f ∈ sortFalling ((boundaryThresholds s w).filter fun f =>
      !taken.contains f.threshold && decide (f.value ≤ lineCount s))) : f.value = thresholdValue s w f.threshold :=
    ((mem_boundaryThresholds_iff s w f).mp (List.mem_of_mem_filter (((members f).mp mem).resolve_left List.not_mem_nil))).1
  refine List.pairwise_map.mpr (List.Pairwise.imp_of_mem (fun memX memY before => ?_) ordered)
  rw [← value memX, ← value memY]
  exact before

/-! ## The lead bounds of START keep every threshold ahead of a commit (R5, R36) -/

theorem failingZone_eq_none_iff (s : State) (ok : Zone → Bool) :
    failingZone s ok = none ↔ ∀ n z, zoneOf s n = some z → z.placed = true → ok z = true := by
  rw [failingZone, List.find?_eq_none]
  constructor
  · intro none n z found placed
    simpa [found] using none n ((mem_placedZones_iff s n).mpr ⟨z, found, placed⟩)
  · intro all n mem
    obtain ⟨z, found, placed⟩ := (mem_placedZones_iff s n).mp mem
    simp [found, all n z found placed]

/-- What the geometry checks leave of the leads: every one is within its point's offset and D_pre. -/
theorem leads_of_geometryFault {s : State} (none : geometryFault s = none) :
    s.pt.geometry.knifeAOffset < s.pt.geometry.knifeBOffset ∧
      s.pt.geometry.knifeLead ≤ s.pt.geometry.knifeAOffset + s.pt.geometry.dPre ∧
      s.pt.geometry.cutoffLead ≤ s.pt.geometry.cutoffOffset + s.pt.geometry.dPre ∧
      ∀ n z, zoneOf s n = some z → z.placed = true → z.rampLead ≤ z.offset + s.pt.geometry.dPre := by
  simp only [geometryFault, List.findSome?_eq_none_iff, List.forall_mem_cons, List.not_mem_nil, false_implies, implies_true,
    and_true, Option.map_eq_none_iff, failingZone_eq_none_iff, ite_eq_left_iff, reduceCtorEq, imp_false, not_not,
    decide_eq_true_eq] at none
  obtain ⟨_, points, _, _, knife, cutoff, zones, _⟩ := none
  exact ⟨points.1, knife, cutoff, zones⟩

theorem lineCount_lt_thresholdValue {s : State} {w : WebPos} (kept : geometryFault s = none)
    (ahead : lineCount s + s.pt.geometry.dPre < w) {t : Threshold} (zones : ∀ n, t = .zone n → n ∈ placedZones s) :
    lineCount s < thresholdValue s w t := by
  obtain ⟨points, knife, cutoff, ramps⟩ := leads_of_geometryFault kept
  have ahead : lineCount s + (s.pt.geometry.dPre : Int) < w := ahead
  rcases t with _ | n | (_ | _) | (_ | _) | _ <;> simp only [thresholdValue]
  case zone =>
    obtain ⟨z, found, placed⟩ := (mem_placedZones_iff s n).mp (zones n rfl)
    have ramp := ramps n z found placed
    simp only [zoneOffset, found, Option.map_some, Option.getD_some]
    omega
  all_goals omega

/-- A boundary claimed more than D_pre ahead of the line count has no threshold behind it. -/
theorem reachedThresholds_eq_nil {s : State} {w : WebPos} (kept : geometryFault s = none)
    (ahead : lineCount s + s.pt.geometry.dPre < w) : reachedThresholds s w [] = [] := by
  refine List.eq_nil_iff_forall_not_mem.mpr fun t mem => ?_
  obtain ⟨_, reached, zones⟩ := (mem_reachedThresholds_iff s w [] t).mp mem
  exact not_lt.mpr reached (lineCount_lt_thresholdValue kept ahead zones)

/-! ## Dispatch (R35 to R37) -/

theorem takeThreshold_of_none {release : BoundaryRef → Option OrderId → OrderId → State → State} {ev : State → State} {flag : Bool}
    {id : MarkId} {s : State} (absent : markOf s id = none) (t : Threshold) : takeThreshold release ev flag id t s = s := by
  simp only [takeThreshold, absent]

theorem takeThreshold_of_boundary {release : BoundaryRef → Option OrderId → OrderId → State → State} {ev : State → State}
    {flag : Bool} {id : MarkId} {m : Mark} {c : Option OrderId} {n : OrderId} {taken : List Threshold} {s : State}
    (found : markOf s id = some m) (kind : m.kind = .boundary c n taken) (t : Threshold) :
    takeThreshold release ev flag id t s =
      if t ∈ taken then s else handThreshold release ev ⟨id, m.w⟩ c n flag t (modMark id (markTaken t) s) := by
  simp only [takeThreshold, found, kind, List.contains_iff_mem]

theorem takeMarkThresholds_of_boundary {release : BoundaryRef → Option OrderId → OrderId → State → State} {ev : State → State}
    {flag : Bool} {id : MarkId} {m : Mark} {c : Option OrderId} {n : OrderId} {taken : List Threshold} {s : State}
    (found : markOf s id = some m) (kind : m.kind = .boundary c n taken) :
    takeMarkThresholds release ev flag id s =
      (reachedThresholds s m.w taken).foldl (fun u x => takeThreshold release ev flag id x u) s := by
  simp only [takeMarkThresholds, found, kind]

/-- Settles O21: values and order by `mem_reachedThresholds_iff` and `pairwise_reachedThresholds`, the lead bounds by
`reachedThresholds_eq_nil`, and the dispatch of one threshold by `takeThreshold_of_boundary`. -/
theorem commitBoundaryHasNoPassedThreshold : Obligations.CommitBoundaryHasNoPassedThreshold := by
  refine ⟨fun s w => reachedThresholds_eq_nil, fun s w taken => ?_, mem_placedZones_iff, fun release ev flag id t s => ?_⟩
  · intro g value row
    have sameValue : value = thresholdValue s w := funext fun t => by rcases t with _ | n | (_ | _) | (_ | _) | _ <;> rfl
    have sameRow : row = thresholdRow := funext fun t => by rcases t with _ | n | (_ | _) | (_ | _) | _ <;> rfl
    rw [sameValue, sameRow]
    exact ⟨mem_reachedThresholds_iff s w taken, pairwise_reachedThresholds s w taken⟩
  · refine ⟨fun absent => takeThreshold_of_none absent t, fun m c n taken found kind => ⟨fun mem => ?_, fun notMem => ?_,
      takeMarkThresholds_of_boundary found kind⟩, fun m c n taken kind => ?_, rfl, fun c n w => ?_⟩
    · rw [takeThreshold_of_boundary found kind, if_pos mem]
    · refine ((takeThreshold_of_boundary found kind t).trans (if_neg notMem)).trans ?_
      cases t <;> rfl
    · simp only [markTaken, kind]
    · cases outcome : (insertCore { kind := .boundary c n [], w := w, uncertainty := .exact 0 } s).2.1 <;>
        simp only [insertBoundary, outcome]

end Sys2Proof.Machine
end

section
/-! PROOFS. Counting sheets and closing orders (R48, R67 to R69): the counts that a sheet changes, the bound on the good sheets, and
the outcome and make-up order of a close. -/

namespace Sys2Proof.Machine

/-! ## The counts of a sheet (R48) -/

theorem modOrder_eq (id : OrderId) (f : Order → Order) (s : State) : modOrder id f s =
    { s with os := { s.os with orders := s.os.orders.map fun o => if o.id = id then f o else o } } := by
  simp only [modOrder, beq_iff_eq]

/-- The sheets counted under one cause. -/
def sheetsUnder (r : RejectCause) (l : List RejectCount) : Nat := ((l.filter fun y => y.cause == r).map (·.sheets)).sum

theorem sheetsUnder_cons (r : RejectCause) (x : RejectCount) (l : List RejectCount) :
    sheetsUnder r (x :: l) = (if x.cause = r then x.sheets else 0) + sheetsUnder r l := by
  unfold sheetsUnder
  by_cases same : x.cause = r
  · simp [same]
  · simp [same]

theorem sheetsUnder_addRejects (c r : RejectCause) (sheets : Nat) (l : List RejectCount) :
    sheetsUnder r (addRejects c sheets l) = sheetsUnder r l + if c = r then sheets else 0 := by
  induction l with
  | nil => rw [addRejects, sheetsUnder_cons, Nat.add_comm]
  | cons x t ih =>
    unfold addRejects
    split
    · next same =>
      rw [beq_iff_eq] at same
      subst same
      simp only [sheetsUnder_cons]
      split <;> omega
    · rw [sheetsUnder_cons, ih, sheetsUnder_cons, Nat.add_assoc]

theorem sum_addRejects (c : RejectCause) (sheets : Nat) (l : List RejectCount) :
    ((addRejects c sheets l).map (·.sheets)).sum = (l.map (·.sheets)).sum + sheets := by
  induction l with
  | nil => simp [addRejects]
  | cons x t ih =>
    unfold addRejects
    split
    · simp only [List.map_cons, List.sum_cons]
      omega
    · simp only [List.map_cons, List.sum_cons, ih]
      omega

theorem countedOrder_none (o : Order) : countedOrder none o =
    { o with cuts := o.cuts + 1, cutState := if o.cutState = .waiting then .cutting else o.cutState,
             good := o.good + o.layout.lanes.length } := by
  simp only [countedOrder, beq_iff_eq]
  rfl

theorem countedOrder_some (r : RejectCause) (o : Order) : countedOrder (some r) o =
    { o with cuts := o.cuts + 1, cutState := if o.cutState = .waiting then .cutting else o.cutState,
             rejects := addRejects r o.layout.lanes.length o.rejects } := by
  simp only [countedOrder, beq_iff_eq]
  rfl

/-- A sheet that no cause rejects is within the order's surplus bound (Table 5-1). -/
theorem notSurplus_of_classify {o : Order} {length : Nat} {a b : WebPos} {s t : State}
    (good : classify (some o) length a b s = (t, none)) :
    o.good < (ceilDiv o.target o.lanes + o.overrun) * o.lanes := by
  have noCause : boardCause s o length (queryMap s a b) = none := by
    unfold classify at good
    dsimp only at good
    split at good
    · cases good
    · assumption
  unfold boardCause at noCause
  split at noCause
  · cases noCause
  · split at noCause
    · cases noCause
    · split at noCause
      · cases noCause
      · next surplus => simpa [isSurplus] using surplus

theorem good_le_of_classify {o : Order} {length : Nat} {a b : WebPos} {s t : State}
    (good : classify (some o) length a b s = (t, none)) (whole : o.layout.lanes.length ∣ o.good) :
    (countedOrder none o).good ≤
      o.layout.lanes.length * ((o.target + o.layout.lanes.length - 1) / o.layout.lanes.length + o.overrun) := by
  have bound := notSurplus_of_classify good
  obtain ⟨cuts, same⟩ := whole
  change o.good < ((o.target + o.layout.lanes.length - 1) / o.layout.lanes.length + o.overrun) * o.layout.lanes.length at bound
  rw [same, Nat.mul_comm _ o.layout.lanes.length] at bound
  rw [countedOrder_none]
  change o.good + o.layout.lanes.length ≤ _
  rw [same, ← Nat.mul_succ]
  exact Nat.mul_le_mul_left _ (Nat.lt_of_mul_lt_mul_left bound)

/-! ## The close of an order (R67 to R69) -/

theorem noRoomFor_iff (s : State) (o : Order) : noRoomFor s o = true ↔
    64 ≤ s.os.orders.length ∨ o.id.makeUp = 15 ∨ ∃ x ∈ s.os.orders, x.id = ⟨o.id.number, o.id.makeUp + 1⟩ := by
  simp only [noRoomFor, orderOf, Bool.or_eq_true, decide_eq_true_eq, beq_iff_eq, List.find?_isSome, or_assoc]

theorem closeOrder_of_absent {id : OrderId} {s : State} (absent : orderOf s id = none) : closeOrder id s = s := by
  simp only [closeOrder, absent]

theorem closeOrder_of_notFed {id : OrderId} {s : State} {o : Order} (found : orderOf s id = some o) (notFed : o.feed ≠ .fed) :
    closeOrder id s = s := by
  simp only [closeOrder, found, beq_iff_eq, if_neg notFed]

/-- The state in which the trigger table is matched against a close (R67). -/
def closeMatched (o : Order) (s : State) : State :=
  handEvent (fun t => t == .orderClosed o.id)
    (removeOrder o.id (report (.order o (outcomeOf s o)) (placeMakeUp o (outcomeOf s o) s)))

theorem id_of_orderOf {id : OrderId} {s : State} {o : Order} (found : orderOf s id = some o) : o.id = id :=
  beq_iff_eq.mp (List.find?_some (p := fun o : Order => o.id == id) found)

theorem closeOrder_of_madeUp {id : OrderId} {s : State} {o : Order} {n : Nat} (found : orderOf s id = some o) (fed : o.feed = .fed)
    (outcome : outcomeOf s { o with cutState := .closed } = .madeUp n) :
    closeOrder id s = evaluate (closeMatched { o with cutState := .closed } s) := by
  obtain rfl := id_of_orderOf found
  simp only [closeOrder, found, beq_iff_eq, if_pos fed, outcome, closeMatched]

theorem closeOrder_of_notMadeUp {id : OrderId} {s : State} {o : Order} (found : orderOf s id = some o) (fed : o.feed = .fed)
    (outcome : ∀ n, outcomeOf s { o with cutState := .closed } ≠ .madeUp n) :
    closeOrder id s = closeMatched { o with cutState := .closed } s := by
  obtain rfl := id_of_orderOf found
  simp only [closeOrder, found, beq_iff_eq, if_pos fed, closeMatched]

/-- Settles O22: the counts by `countedOrder_none` and `countedOrder_some`, the bound by `good_le_of_classify`, and the close
outcome by outcome. -/
theorem countsCloseAndMakeUp : Obligations.CountsCloseAndMakeUp := by
  refine ⟨fun s id f => ⟨rfl, rfl, rfl, modOrder_eq id f s, rfl⟩, fun c o => ?_, fun id c s => modOrder_eq id (countedOrder c) s,
    fun o length a b s t good _ whole => good_le_of_classify good whole, fun o s => ?_, fun _ => rfl, fun id s => ?_⟩
  · cases c with
    | none =>
      rw [countedOrder_none]
      refine ⟨rfl, rfl, rfl, fun _ => ⟨rfl, rfl⟩, fun r same => (by cases same), fun kept => ?_⟩
      dsimp only
      rw [Nat.mul_succ, kept]
      omega
    | some c =>
      rw [countedOrder_some]
      refine ⟨rfl, rfl, rfl, fun none => (by cases none), fun r same => ?_, fun kept => ?_⟩
      · cases same
        refine ⟨rfl, (sheetsUnder_addRejects c c _ _).trans (by rw [if_pos rfl]; rfl), fun q other => ?_⟩
        exact (sheetsUnder_addRejects c q _ _).trans (by rw [if_neg other.symm]; rfl)
      · dsimp only
        rw [Nat.mul_succ, kept, sum_addRejects, Nat.add_assoc]
  · simp only [outcomeOf, noRoomFor_iff, beq_iff_eq]
  · cases found : s.os.orders.find? (fun o => o.id == id) with
    | none => exact closeOrder_of_absent found
    | some o =>
      by_cases fed : o.feed = .fed
      · obtain rfl := id_of_orderOf found
        dsimp only
        rw [if_pos fed]
        cases outcome : outcomeOf s { o with cutState := .closed } with
        | madeUp n =>
          refine (closeOrder_of_madeUp found fed outcome).trans ?_
          rw [closeMatched, outcome]
          rfl
        | _ =>
          refine (closeOrder_of_notMadeUp found fed (by simp [outcome])).trans ?_
          rw [closeMatched, outcome]
          rfl
      · exact (closeOrder_of_notFed found fed).trans (if_neg fed).symm

end Sys2Proof.Machine
end

section
/-! PROOFS. The Order Sequencer's mode, evaluation and commit (R49 to R60). -/

namespace Sys2Proof.Machine

/-! ## The panel's part -/

/-- A request its source may not make is NOT_PERMITTED (R188, check 3). -/
theorem receiveBody_of_forbidden {h : ReqHeader} {s : State} (reaches : Reaches h .panel s) {b : Body}
    (forbidden : panelForbids b = true) :
    receiveRequest h (.body b) s = answered h .panel (BitVec.ofNat 8 b.code) (.refused .notPermitted .none .none) s := by
  rw [receiveRequest_of_reaches reaches, takeForm, forbidden]
  rfl

theorem receiveBody_of_supervisor {h : ReqHeader} {s t : State} {reply : Reply} (reaches : Reaches h .supervisor s) {b : Body}
    (rule : applyBody h .supervisor b s = (t, reply)) :
    receiveRequest h (.body b) s = answered h .supervisor (BitVec.ofNat 8 b.code) reply t := by
  rw [receiveRequest_of_reaches reaches, takeForm]
  exact congrArg (fun x : State × Reply => answered h .supervisor (BitVec.ofNat 8 b.code) x.2 x.1) rule

/-! ## The successor checks (R54) -/

theorem standDiffers_iff (s : State) (o : Order) (k : Nat) (r : Stand) (found : standOf s k = some r) :
    standDiffers s o k = true ↔ ∀ roll, r.active = some roll → gradePaper s o.grade k ≠ some roll.paper := by
  unfold standDiffers
  rw [found, Option.bind_some]
  cases r.active <;> simp

/-- The stands examined are the stands there are. -/
theorem mem_differingStands_iff (s : State) (o : Order) (k : Nat) : k ∈ differingStands s o ↔
    1 ≤ k ∧ ∃ r, standOf s k = some r ∧ ∀ roll, r.active = some roll → gradePaper s o.grade k ≠ some roll.paper := by
  have examined : k ∈ (List.range (standCount s)).map (· + 1) ↔ 1 ≤ k ∧ k ≤ s.sc.stands.length := by
    simp only [List.mem_map, List.mem_range, standCount]
    exact ⟨fun ⟨i, lt, eq⟩ => by omega, fun ⟨low, high⟩ => ⟨k - 1, by omega, by omega⟩⟩
  rw [differingStands, List.mem_filter, examined]
  constructor
  · rintro ⟨⟨low, high⟩, differs⟩
    obtain ⟨i, rfl⟩ : ∃ i, k = i + 1 := ⟨k - 1, by omega⟩
    have found : standOf s (i + 1) = some s.sc.stands[i] := List.getElem?_eq_getElem high
    exact ⟨low, _, found, (standDiffers_iff s o _ _ found).mp differs⟩
  · rintro ⟨low, r, found, differs⟩
    exact ⟨standOf_lt found, (standDiffers_iff s o k r found).mpr differs⟩

theorem pairwise_differingStands (s : State) (o : Order) : (differingStands s o).Pairwise (· < ·) := by
  refine List.Pairwise.filter _ (List.pairwise_map.mpr ?_)
  exact List.pairwise_lt_range.imp fun lt => Nat.add_lt_add_right lt 1

/-! ## The overlap of a mark (R50) -/

theorem noticeOverlap_of_boundary (s : State) (w : WebPos) {m : Mark} {c n taken} (kind : m.kind = .boundary c n taken) :
    noticeOverlap s w m = none := by
  rw [noticeOverlap, (isBoundary_iff m).mpr ⟨c, n, taken, kind⟩]
  rfl

theorem noticeOverlap_of_open (s : State) (w : WebPos) {m : Mark} {c src} (kind : m.kind = .window c src .openEnded) :
    noticeOverlap s w m =
      some ((spanAt s (spanIndex m.kind)).lead + (spanAt s (spanIndex m.kind)).trail + 2 * m.uncertainty) := by
  simp only [noticeOverlap, Mark.isBoundary, Mark.isOpen, kind] <;> rfl

/-- A mark that is neither a boundary nor open overlaps by what its extent covers above the start. -/
theorem noticeOverlap_of_closed (s : State) (w : WebPos) {m : Mark} (boundary : m.isBoundary = false)
    (closed : m.isOpen = false) : noticeOverlap s w m =
      if extentHigh s m ≤ max (extentLow s m) w then none
      else some (extentHigh s m - max (extentLow s m) w).toNat := by
  rw [noticeOverlap, boundary, closed]
  simp only [Bool.false_eq_true, if_false, Int.sub_pos]
  by_cases covered : extentHigh s m ≤ max (extentLow s m) w
  · rw [if_pos covered, if_neg (not_lt.mpr covered)]
  · rw [if_neg covered, if_pos (not_le.mp covered)]

/-! ## The release (R58) -/

theorem isRelease_of_orders {s : State} {c n : Order} (current : currentOrder s = some c) (next : nextOrder s = some n)
    (fromOrder : Option OrderId) (toOrder : OrderId) :
    isRelease s fromOrder toOrder = (c.feed == .committed && fromOrder == some c.id && n.id == toOrder) := by
  rw [isRelease, current, next]

theorem isRelease_iff (s : State) (fromOrder : Option OrderId) (toOrder : OrderId) :
    isRelease s fromOrder toOrder = true ↔ ∃ c n, currentOrder s = some c ∧ c.feed = .committed ∧
      nextOrder s = some n ∧ fromOrder = some c.id ∧ toOrder = n.id := by
  constructor
  · intro release
    cases current : currentOrder s with
    | none => simp [isRelease, current] at release
    | some c =>
      cases next : nextOrder s with
      | none => simp [isRelease, current, next] at release
      | some n =>
        rw [isRelease_of_orders current next] at release
        simp only [Bool.and_eq_true, beq_iff_eq] at release
        obtain ⟨⟨committed, source⟩, target⟩ := release
        exact ⟨c, n, rfl, committed, rfl, source, target.symm⟩
  · rintro ⟨c, n, current, committed, next, rfl, rfl⟩
    rw [isRelease_of_orders current next, committed]
    simp

theorem releaseArrival_of_other {s : State} {fromOrder : Option OrderId} {toOrder : OrderId}
    (other : isRelease s fromOrder toOrder = false) (b : BoundaryRef) : releaseArrival b fromOrder toOrder s = s := by
  unfold releaseArrival
  split
  · rw [other]
    exact if_neg Bool.false_ne_true
  · rfl

theorem releaseArrival_of_release {s : State} {c n : Order} {fromOrder : Option OrderId} {toOrder : OrderId}
    (current : currentOrder s = some c) (next : nextOrder s = some n) (release : isRelease s fromOrder toOrder = true)
    (b : BoundaryRef) : releaseArrival b fromOrder toOrder s =
      (let t := enterFeeding n b.w (modOrder c.id
        (fun o => { o with feed := .fed, released := (o.endW.getD 0 - o.startW.getD 0).toNat }) s)
      { t with os := { t.os with heldReason := none }, me := { t.me with feedStarts := t.me.feedStarts ++ [n.id] } }) := by
  rw [releaseArrival, current, next]
  exact if_pos release

/-! ## The obligation -/

/-- Settles O23: the mode requests, the two evaluations, the successor checks, the commit and the release. -/
theorem modeRequestSetsTheMode : Obligations.ModeRequestSetsTheMode := by
  refine ⟨fun h src s reaches => ?_, fun _ => rfl, fun _ => rfl, ?_, ?_, ?_, ?_, ?_, ?_, ?_, ?_, ?_, ?_, fun _ _ _ _ => rfl,
    ?_, ?_, ?_, ?_⟩
  · refine ⟨congrArg _ (receiveBody_of_rule reaches (b := .mode (.named .hold)) rfl rfl), ?_, ?_, ?_, ?_,
      fun code => congrArg _ (receiveBody_of_rule reaches (b := .mode (.beyond code)) rfl rfl)⟩
    · rintro rfl
      exact congrArg _ (receiveBody_of_supervisor reaches (b := .mode (.named .single)) rfl)
    · rintro rfl
      exact congrArg _ (receiveBody_of_supervisor reaches (b := .mode (.named .auto)) rfl)
    · rintro rfl
      exact congrArg _ (receiveBody_of_forbidden reaches (b := .mode (.named .single)) rfl)
    · rintro rfl
      exact congrArg _ (receiveBody_of_forbidden reaches (b := .mode (.named .auto)) rfl)
  · intro s
    unfold evaluateFirst currentOrder
    simp only [Bool.or_eq_true, Bool.not_eq_true', beq_iff_eq, List.find?_isSome, or_assoc] <;> rfl
  · intro s
    unfold evaluateCommit currentOrder commitDue queuedHead
    simp only [Bool.or_eq_true, Bool.not_eq_true', beq_iff_eq, bne_iff_ne, or_assoc, decide_eq_false_iff_not, not_le] <;> rfl
  · intro g k p s
    simp only [gradePaper, gradeOf, Option.join_eq_some_iff, Option.bind_eq_some_iff]
  · exact mem_differingStands_iff
  · intro s n
    refine ⟨pairwise_differingStands s n, ?_⟩
    unfold successorFault
    simp only [beq_iff_eq] <;> rfl
  · intro s n k r found
    unfold paperFault
    rw [found]
    cases standby : r.standby with
    | empty => simp only [standby, StandbyArm.roll]
    | prepared roll => simp only [standby, StandbyArm.roll, StandbyArm.isReady] <;> rfl
    | ready roll =>
      simp only [standby, StandbyArm.roll, StandbyArm.isReady, bne_iff_ne, Bool.not_true, Bool.false_eq_true, if_false]
  · intro s n r
    unfold holdCommit
    simp only [beq_iff_eq]
  · intro o w s
    rfl
  · intro s w m
    split
    · next kind => exact noticeOverlap_of_boundary s w kind
    · next kind => exact noticeOverlap_of_open s w kind
    · next boundary opened =>
      refine noticeOverlap_of_closed s w ?_ ((isOpen_eq_false_iff m).mpr opened)
      exact Bool.eq_false_iff.mpr fun yes => Exists.elim ((isBoundary_iff m).mp yes) fun c h => by
        obtain ⟨n, taken, kind⟩ := h
        exact boundary c n taken kind
  · intro m s
    unfold takeNotice creditOf
    cases currentOrder s with
    | none => rfl
    | some o =>
      simp only [Bool.and_eq_true, beq_iff_eq, Bool.not_eq_true']
      refine if_congr Iff.rfl ?_ rfl
      cases noticeOverlap s (o.startW.getD 0) m with
      | none => rfl
      | some part => cases s.os.credits.find? (fun x => x.mark == m.id) <;> rfl
  · intro s
    unfold singleDone
    simp only [beq_iff_eq]
  · intro n s
    rfl
  · intro c n s
    rfl
  · intro b f t s
    refine ⟨isRelease_iff s f t, fun other => ⟨?_, releaseArrival_of_other other b⟩, fun release => ?_,
      fun c n current next release => releaseArrival_of_release current next release b⟩
    · rw [takeRelease, other]
      exact if_neg Bool.false_ne_true
    · rw [takeRelease, release]
      exact if_pos rfl

end Sys2Proof.Machine
end

section
/-! PROOFS. The Knife Station Controller (R71 to R83): the station query and assignment, boundaries at a station, and the status
changes. -/

namespace Sys2Proof.Machine

/-! ## The station query (R74) -/

theorem assignable_iff (r : KnifeRecord) : r.assignable = true ↔ r.served = [] ∧ (r.state = .idle ∨ r.state = .ready) := by
  simp only [KnifeRecord.assignable, Bool.and_eq_true, List.isEmpty_iff, Bool.or_eq_true, beq_iff_eq]

theorem holds_iff (r : KnifeRecord) (l : Layout) : r.holds l = true ↔ r.held.map (·.layout) = some l := by
  rw [KnifeRecord.holds, beq_iff_eq]

theorem servingLast_a {s : State} {id : OrderId} (last : s.kc.a.served.getLast? = some id) : servingLast s id = some .a := by
  rw [servingLast, last]
  exact if_pos (beq_self_eq_true _)

theorem servingLast_b {s : State} {id : OrderId} (notA : s.kc.a.served.getLast? ≠ some id)
    (last : s.kc.b.served.getLast? = some id) : servingLast s id = some .b := by
  simp only [servingLast, beq_iff_eq, if_neg notA, last, if_true]

theorem servingLast_none {s : State} {id : OrderId} (notA : s.kc.a.served.getLast? ≠ some id)
    (notB : s.kc.b.served.getLast? ≠ some id) : servingLast s id = none := by
  simp only [servingLast, beq_iff_eq, if_neg notA, if_neg notB]

/-- Station A comes before station B where both end with the order. -/
theorem servingLast_of_last {s : State} {id : OrderId} {x : KnifeId} (last : (knifeOf s x).served.getLast? = some id)
    (first : x = .b → s.kc.a.served.getLast? ≠ some id) : servingLast s id = some x := by
  cases x with
  | a => exact servingLast_a last
  | b => exact servingLast_b (first rfl) last

theorem knifeQuery_of_serving {s : State} {o : Order} {x : KnifeId} (current : currentOrder s = some o)
    (serving : servingLast s o.id = some x) (l : Layout) : knifeQuery s l =
      if ((knifeOf s x).state = .ready ∨ (knifeOf s x).state = .engaged) ∧ (knifeOf s x).held.map (·.layout) = some l then .shared
      else if (knifeOf s (otherKnife x)).assignable = true then .station (otherKnife x) else .none := by
  have found : ((currentOrder s).bind fun o => servingLast s o.id) = some x := by rw [current, Option.bind_some, serving]
  rw [knifeQuery, found]
  simp only [Bool.and_eq_true, Bool.or_eq_true, beq_iff_eq, holds_iff]

/-- With no serving station the answer is the first assignable one, a READY one with the layout before any other. -/
theorem knifeQuery_of_none {s : State} (serving : ((currentOrder s).bind fun o => servingLast s o.id) = none) (l : Layout) :
    let fits := fun (k : KnifeId) => (knifeOf s k).assignable = true ∧ (knifeOf s k).state = .ready ∧
      (knifeOf s k).held.map (·.layout) = some l
    knifeQuery s l = if fits .a then .station .a else if fits .b then .station .b
      else if s.kc.a.assignable = true then .station .a else if s.kc.b.assignable = true then .station .b else .none := by
  have fitsIff : ∀ r : KnifeRecord, (r.assignable && (r.state == .ready && r.holds l)) = true ↔
      r.assignable = true ∧ r.state = .ready ∧ r.held.map (·.layout) = some l := fun r => by
    simp only [Bool.and_eq_true, beq_iff_eq, holds_iff]
  intro fits
  rw [knifeQuery, serving]
  simp only [fits, knifeOf, firstAssignable, ← fitsIff, Bool.and_true]
  cases s.kc.a.assignable && (s.kc.a.state == .ready && s.kc.a.holds l)
  · cases s.kc.b.assignable && (s.kc.b.state == .ready && s.kc.b.holds l)
    · cases s.kc.a.assignable
      · cases s.kc.b.assignable <;> rfl
      · rfl
    · rfl
  · rfl

/-! ## Assignment (R75) -/

theorem knifeAssign_station (k : KnifeId) (c : Option OrderId) (n : OrderId) (l : Layout) (s : State) :
    knifeAssign (.station k) c n l s =
      if (knifeOf s k).state = .faulted ∨ ((knifeOf s k).state = .ready ∧ (knifeOf s k).held.map (·.layout) = some l)
      then modKnife k (fun r => { r with served := [n] }) s
      else giveLayout k l n (modKnife k (fun r => { r with served := [n] }) s) := by
  simp only [knifeAssign, knifeOf_modKnife_same, Bool.or_eq_true, Bool.and_eq_true, beq_iff_eq, holds_iff]

theorem knifeAssign_shared {c n : OrderId} {x : KnifeId} {s : State} (serving : servingLast s c = some x) (l : Layout) :
    knifeAssign .shared (some c) n l s = modKnife x (fun r => { r with served := r.served ++ [n] }) s := by
  simp only [knifeAssign, Option.bind_some, serving]

/-! ## Boundaries at a station (R77, R78) -/

theorem relation_some (r : KnifeRecord) (c n : OrderId) : relation r (some c) n =
    if c ∈ r.served then (if n ∈ r.served then .shared else .fromStation)
    else (if n ∈ r.served then .toStation else .neither) := by
  by_cases c ∈ r.served <;> by_cases n ∈ r.served <;> simp [relation, *]

theorem relation_none (r : KnifeRecord) (n : OrderId) :
    relation r none n = if n ∈ r.served then .toStation else .neither := by
  by_cases n ∈ r.served <;> simp [relation, *]

theorem knifeReadyRises_of_setting {ev : State → State} {k : KnifeId} {s : State} (setting : (knifeOf s k).state = .setting) :
    knifeReadyRises ev k s = ev (serveEngage k (modKnife k (fun r => { r with state := .ready }) s)) := by
  rw [knifeReadyRises, setting]
  exact if_pos (beq_self_eq_true _)

theorem knifeReadyRises_of_other {ev : State → State} {k : KnifeId} {s : State} (other : (knifeOf s k).state ≠ .setting) :
    knifeReadyRises ev k s = s := by
  rw [knifeReadyRises]
  exact if_neg (mt beq_iff_eq.mp other)

theorem knifeReadyFalls_of_ready {k : KnifeId} {s : State} (ready : (knifeOf s k).state = .ready) : knifeReadyFalls k s =
    modKnife k (fun r => { r with state := .setting, engage := r.engage.map fun e => { e with waiting := true } }) s := by
  rw [knifeReadyFalls, ready]
  exact if_pos (beq_self_eq_true _)

theorem knifeReadyFalls_of_other {k : KnifeId} {s : State} (other : (knifeOf s k).state ≠ .ready) : knifeReadyFalls k s = s := by
  rw [knifeReadyFalls]
  exact if_neg (mt beq_iff_eq.mp other)

theorem getD_waiting_iff (e : Option Engage) :
    (e.map (·.waiting)).getD false = true ↔ ∃ x, e = some x ∧ x.waiting = true := by
  cases e <;> simp

theorem knifeArrival_of_shared {ev : State → State} {k : KnifeId} {b : BoundaryRef} {c n : OrderId} {s : State}
    (rel : relation (knifeOf s k) (some c) n = .shared) : knifeArrival ev k b (some c) n s =
      modKnife k (fun r => { r with served := r.served.filter fun o => o != c }) s := by
  unfold knifeArrival
  rw [rel]

theorem knifeArrival_of_neither {ev : State → State} {k : KnifeId} {b : BoundaryRef} {x : Option OrderId} {n : OrderId} {s : State}
    (rel : relation (knifeOf s k) x n = .neither) : knifeArrival ev k b x n s = s := by
  unfold knifeArrival
  rw [rel]

theorem knifeArrival_of_to {ev : State → State} {k : KnifeId} {b : BoundaryRef} {x : Option OrderId} {n : OrderId} {s : State}
    (rel : relation (knifeOf s k) x n = .toStation) : knifeArrival ev k b x n s = toArrival ev k b s := by
  unfold knifeArrival
  rw [rel]

theorem knifeArrival_of_from {ev : State → State} {k : KnifeId} {b : BoundaryRef} {c n : OrderId} {s : State}
    (rel : relation (knifeOf s k) (some c) n = .fromStation) : knifeArrival ev k b (some c) n s = fromArrival ev k b c s := by
  unfold knifeArrival
  rw [rel]

theorem toArrival_eq (ev : State → State) (k : KnifeId) (b : BoundaryRef) (s : State) :
    let t := modKnife k (fun r => { r with boardPresent := true }) s
    let late := modKnife k (fun r => { r with engage := some ⟨true, some b.mark, b.w⟩ }) t
    toArrival ev k b s =
      if (knifeOf s k).state = .engaged ∨ (knifeOf s k).state = .ready ∨
          (∃ e, (knifeOf s k).engage = some e ∧ e.waiting = true) then t
      else if (knifeOf s k).window = none then openLate ev k late else late := by
  simp only [toArrival, engageWaits, knifeOf_modKnife_same, Bool.or_eq_true, beq_iff_eq, getD_waiting_iff, or_assoc]
  refine if_congr Iff.rfl rfl ?_
  cases (knifeOf s k).window <;> rfl

/-- What becomes of a station's record hangs on its record alone. -/
theorem modKnife_congr {k : KnifeId} {f g : KnifeRecord → KnifeRecord} {s : State} (same : f (knifeOf s k) = g (knifeOf s k)) :
    modKnife k f s = modKnife k g s := by
  cases k with
  | a => exact congrArg (fun r => { s with kc := { s.kc with a := r } }) same
  | b => exact congrArg (fun r => { s with kc := { s.kc with b := r } }) same

theorem markOf_modKnife (k : KnifeId) (f : KnifeRecord → KnifeRecord) (s : State) (id : MarkId) :
    markOf (modKnife k f s) id = markOf s id := by
  rw [markOf, modKnife_sm, markOf]

theorem boardAt_modKnife (k : KnifeId) (f : KnifeRecord → KnifeRecord) (s : State) :
    boardAt (modKnife k f s) (knifeOffset (modKnife k f s) k) = boardAt s (knifeOffset s k) := by
  cases k <;> rfl

/-- The end of an arrival at a from-station, once the knives are seen to: the station's window is closed, and a free station is
examined. -/
def endFromArrival (ev : State → State) (k : KnifeId) (w : WebPos) (s : State) : State :=
  let closed := modKnife k (fun r => { r with lateRefused := false }) (closeKnifeWindow ev k (some w) s).1
  if (knifeOf closed k).state == .ready && (knifeOf closed k).served.isEmpty then ev closed else closed

theorem endFromArrival_eq (ev : State → State) (k : KnifeId) (w : WebPos) (s : State) :
    let closed := modKnife k (fun r => { r with lateRefused := false }) (closeKnifeWindow ev k (some w) s).1
    endFromArrival ev k w s =
      if (knifeOf closed k).state = .ready ∧ (knifeOf closed k).served = [] then ev closed else closed := by
  simp only [endFromArrival, Bool.and_eq_true, beq_iff_eq, List.isEmpty_iff]

/-! ## Status changes (R79 to R82) -/

theorem liftDone_eq (ev : State → State) (k : KnifeId) (b : BoundaryRef) (s : State) :
    let left := (knifeOf s k).served.filter fun o => some o != boundaryFrom s b.mark
    let t := modKnife k (fun r => { r with
      served := left, lift := none, state := .idle, boardPresent := r.boardPresent && !left.isEmpty }) s
    liftDone ev k b s = if left = [] then ev t else t := by
  intro left t
  have same : modKnife k (fun r => { r with
      served := r.served.filter fun o => some o != boundaryFrom s b.mark, lift := none, state := .idle,
      boardPresent := r.boardPresent && !(r.served.filter fun o => some o != boundaryFrom s b.mark).isEmpty }) s = t :=
    modKnife_congr rfl
  unfold liftDone
  dsimp only
  rw [same]
  simp only [t, knifeOf_modKnife_same, List.isEmpty_iff]

theorem knifeLiftedRises_of_asked {ev : State → State} {k : KnifeId} {s : State} {b : BoundaryRef}
    (engaged : (knifeOf s k).state = .engaged) (lift : (knifeOf s k).lift = some b) :
    knifeLiftedRises ev k s = liftDone ev k b s := by
  unfold knifeLiftedRises
  dsimp only
  rw [engaged, lift]
  rfl

theorem knifeLiftedRises_of_unasked {ev : State → State} {k : KnifeId} {s : State}
    (engaged : (knifeOf s k).state = .engaged) (lift : (knifeOf s k).lift = none) :
    knifeLiftedRises ev k s = if (knifeOf s k).served = [] then ev (modKnife k (fun r => { r with state := .idle }) s)
      else liftUnasked ev k s := by
  unfold knifeLiftedRises
  dsimp only
  rw [engaged, lift]
  simp only [beq_self_eq_true, if_true, List.isEmpty_iff]

theorem knifeFaultRises_of_engaged {ev : State → State} {k : KnifeId} {s : State} (engaged : (knifeOf s k).state = .engaged) :
    let cut := modKnife k (fun r => { r with state := .faulted, lift := none, engage := none }) s
    knifeFaultRises ev k s =
      if cut.me.running then
        knifeReport k (.fault (openKnifeFault ev k cut).2 true) .engaged none
          (stopClaim .knifeFault (claimStop .knifeFault (openKnifeFault ev k cut).1))
      else knifeReport k (.fault .none false) .engaged none cut := by
  rw [knifeFaultRises, engaged]

/-- A fault window still held is closed as the fault falls. -/
def closeFaultWindow (ev : State → State) (k : KnifeId) (s : State) : State × Option (MarkId × Option Nat) :=
  match (knifeOf s k).window with
  | some (.fault _) => closeKnifeWindow ev k none s
  | _ => (s, none)

/-- The rest of a fault's falling, after the closing `c` (R82, steps 3 to 6). -/
def endFault (ev : State → State) (k : KnifeId) (c : State × Option (MarkId × Option Nat)) : State :=
  let closed := c.2.bind fun p => p.2.map fun l => (p.1, l)
  let t := modKnife k (fun r => { r with state := .idle }) c.1
  match (knifeOf t k).served with
  | [] => knifeReport k (.faultEnd closed none) .faulted none (ev t)
  | id :: _ => knifeReport k (.faultEnd closed (resendLayout ev k id t).2) .faulted none (resendLayout ev k id t).1

theorem knifeFaultFalls_of_faulted {ev : State → State} {k : KnifeId} {s : State} (faulted : (knifeOf s k).state = .faulted) :
    knifeFaultFalls ev k s = endFault ev k (closeFaultWindow ev k s) := by
  rw [knifeFaultFalls, faulted]
  exact if_pos rfl

theorem endFault_of_free {ev : State → State} {k : KnifeId} {c : State × Option (MarkId × Option Nat)}
    (served : (knifeOf (modKnife k (fun r => { r with state := .idle }) c.1) k).served = []) : endFault ev k c =
      knifeReport k (.faultEnd (c.2.bind fun p => p.2.map fun l => (p.1, l)) none) .faulted none
        (ev (modKnife k (fun r => { r with state := .idle }) c.1)) := by
  unfold endFault
  dsimp only
  rw [served]

theorem endFault_of_serving {ev : State → State} {k : KnifeId} {c : State × Option (MarkId × Option Nat)} {id : OrderId}
    {rest : List OrderId}
    (served : (knifeOf (modKnife k (fun r => { r with state := .idle }) c.1) k).served = id :: rest) : endFault ev k c =
      (let r := resendLayout ev k id (modKnife k (fun r => { r with state := .idle }) c.1)
      knifeReport k (.faultEnd (c.2.bind fun p => p.2.map fun l => (p.1, l)) r.2) .faulted none r.1) := by
  unfold endFault
  dsimp only
  rw [served]

theorem servedLayout_eq_some {s : State} {k : KnifeId} {id : OrderId} {l : Layout}
    (layout : (orderOf s id).map (·.layout) = some l ∨
      (orderOf s id = none ∧ (knifeOf s k).held.map (·.layout) = some l)) : servedLayout s k id = some l := by
  unfold servedLayout
  rcases layout with own | ⟨gone, held⟩
  · obtain ⟨o, found, rfl⟩ := Option.map_eq_some_iff.mp own
    rw [found]
  · rw [gone]
    exact held

theorem resendLayout_eq (ev : State → State) {k : KnifeId} {id : OrderId} {s : State} {l : Layout}
    (layout : servedLayout s k id = some l) :
    let sent := giveLayout k l id s
    let late := modKnife k (fun r => { r with engage := some ⟨true, none, boardAt sent (knifeOffset sent k)⟩ }) sent
    resendLayout ev k id s = ((if (knifeOf sent k).boardPresent = true ∧
        ¬(∃ e, (knifeOf sent k).engage = some e ∧ e.waiting = true) then openLate ev k late else sent), some ⟨l, id⟩) := by
  intro sent late
  unfold resendLayout
  rw [layout, Option.map_some]
  simp only [Bool.and_eq_true, Bool.not_eq_true', ← Bool.not_eq_true, getD_waiting_iff]
  by_cases present : (knifeOf sent k).boardPresent = true ∧ ¬∃ e, (knifeOf sent k).engage = some e ∧ e.waiting = true
  · rw [if_pos present]
    exact congrArg (·, some _) (if_pos present).symm
  · rw [if_neg present]
    exact congrArg (·, some _) (if_neg present).symm

/-! ## The windows of a station (R71, R80) -/

theorem closeKnifeWindow_of_none (ev : State → State) {k : KnifeId} (far : Option WebPos) {s : State}
    (window : (knifeOf s k).window = none) : closeKnifeWindow ev k far s = (s, none) := by
  rw [closeKnifeWindow, window]

theorem closeKnifeWindow_of_late (ev : State → State) {k : KnifeId} (far : Option WebPos) {s : State} {m : MarkId}
    (window : (knifeOf s k).window = some (.late m)) : closeKnifeWindow ev k far s =
      (let r := closeWindow ev m (knifeOwns k) far (modKnife k (fun r => { r with window := none }) s)
      (r.1, some (m, r.2))) := by
  rw [closeKnifeWindow, window]

theorem closeKnifeWindow_of_fault (ev : State → State) {k : KnifeId} (far : Option WebPos) {s : State} {m : MarkId}
    (window : (knifeOf s k).window = some (.fault m)) : closeKnifeWindow ev k far s =
      (let r := closeWindow ev m (knifeOwns k) far (modKnife k (fun r => { r with window := none }) s)
      (r.1, some (m, r.2))) := by
  rw [closeKnifeWindow, window]

/-- Whatever closes a station's window leaves the station's own record to the closing itself. -/
theorem knifeReport_eq (k : KnifeId) (e : KnifeEvent) (before : KnifeState) (boundary : Option MarkId) (s : State) :
    knifeReport k e before boundary s = report (.knife {
      station := k, event := e, before := before, after := (knifeOf s k).state, served := (knifeOf s k).served,
      boundary := boundary }) s := rfl

theorem knifeEngagedRises_of_up {ev : State → State} {k : KnifeId} {s : State}
    (up : (knifeOf s k).state = .idle ∨ (knifeOf s k).state = .setting ∨ (knifeOf s k).state = .ready) :
    knifeEngagedRises ev k s = endLate ev k (knifeOf s k).state (knifeOf s k).engage
      (modKnife k (fun r => { r with state := .engaged, engage := none }) s) := by
  rw [knifeEngagedRises]
  refine if_pos ?_
  simpa only [Bool.or_eq_true, beq_iff_eq, or_assoc] using up

theorem knifeEngagedRises_of_down {ev : State → State} {k : KnifeId} {s : State}
    (down : (knifeOf s k).state = .engaged ∨ (knifeOf s k).state = .faulted) : knifeEngagedRises ev k s = s := by
  rw [knifeEngagedRises]
  refine if_neg ?_
  rcases down with down | down <;> simp [down]

theorem endLate_of_late {ev : State → State} {k : KnifeId} {before : KnifeState} {e : Option Engage} {s : State} {id : MarkId}
    (window : (knifeOf s k).window = some (.late id)) : endLate ev k before e s =
      (let w := ((markOf s id).map (·.w)).getD ((e.map (·.w)).getD 0)
      let c := closeKnifeWindow ev k none s
      (c.2.bind (·.2)).elim (knifeReport k (.lateEndRefused w (boardAt c.1 (knifeOffset c.1 k))) before (e.bind (·.mark)) c.1)
        fun len => knifeReport k (.lateEnd id w len) before (e.bind (·.mark)) c.1) := by
  rw [endLate, window]
  dsimp only
  cases (closeKnifeWindow ev k none s).2.bind (·.2) <;> rfl

theorem endLate_of_other {ev : State → State} {k : KnifeId} {before : KnifeState} {e : Option Engage} {s : State}
    (other : ∀ id, (knifeOf s k).window ≠ some (.late id)) : endLate ev k before e s =
      if (knifeOf s k).lateRefused = true then
        knifeReport k (.lateEndRefused ((e.map (·.w)).getD 0) (boardAt s (knifeOffset s k))) before (e.bind (·.mark))
          (modKnife k (fun r => { r with lateRefused := false }) s)
      else s := by
  unfold endLate
  split
  · next id window => exact absurd window (other id)
  · rfl

/-! ## The obligation -/

/-- Settles O28: the station's status changes, the query, the assignment and the boundaries, each by the case lemmas above. -/
theorem knifeReadyChanges : Obligations.KnifeReadyChanges := by
  refine ⟨fun k s => ⟨knifeReadyRises_of_setting, knifeReadyRises_of_other, knifeReadyFalls_of_ready, knifeReadyFalls_of_other⟩,
    ?_, fun _ _ => ⟨rfl, rfl, rfl, rfl⟩, ?_, assignable_iff, ?_, fun _ _ _ _ => rfl, ?_,
    fun r c n => ⟨relation_some r c n, relation_none r n⟩, ?_, ?_, ?_, ?_, ?_, ?_, ?_, ?_, ?_, ?_, fun _ _ => rfl, knifeReport_eq⟩
  · intro k s
    unfold serveEngage
    cases (knifeOf s k).engage <;> rfl
  · intro k c src
    simp only [knifeOwns, Bool.and_eq_true, Bool.or_eq_true, beq_iff_eq]
  · intro l s
    refine ⟨fun o x y current pair last => ?_, fun last => knifeQuery_of_none ?_ l⟩
    · rcases pair with ⟨rfl, rfl⟩ | ⟨rfl, rfl, notA⟩
      · exact knifeQuery_of_serving current (servingLast_a last) l
      · exact knifeQuery_of_serving current (servingLast_b notA last) l
    · cases current : currentOrder s with
      | none => rfl
      | some o => exact servingLast_none (last o current).1 (last o current).2
  · refine fun c n l s => ⟨rfl, fun k => knifeAssign_station k c n l s, fun o x current last first => ?_⟩
    rw [current]
    exact knifeAssign_shared (servingLast_of_last last first) l
  · intro ev k b c n s
    unfold knifeApproach
    dsimp only
    cases relation (knifeOf s k) c n with
    | fromStation => simp only [beq_iff_eq]
    | toStation => cases (knifeOf s k).state <;> rfl
    | shared => rfl
    | neither => rfl
  · intro ev k b c n s
    refine ⟨knifeArrival_of_shared, fun x => knifeArrival_of_neither,
      fun x rel => (knifeArrival_of_to rel).trans (toArrival_eq ev k b s), fun rel => ?_⟩
    intro left t lifted closed
    have gone : modKnife k (fun r => { r with
        served := r.served.filter fun o => o != c,
        boardPresent := r.boardPresent && !(r.served.filter fun o => o != c).isEmpty }) s = t := modKnife_congr rfl
    have record : knifeOf t k = { knifeOf s k with
        served := left, boardPresent := (knifeOf s k).boardPresent && !left.isEmpty } := knifeOf_modKnife_same k _ s
    rw [knifeArrival_of_from rel]
    unfold fromArrival
    dsimp only
    rw [gone, record]
    exact endFromArrival_eq ev k b.w lifted
  · intro ev k far s
    cases window : (knifeOf s k).window with
    | none => exact closeKnifeWindow_of_none ev far window
    | some win => cases win with
      | late m => exact closeKnifeWindow_of_late ev far window
      | fault m => exact closeKnifeWindow_of_fault ev far window
  · intro ev k e s engage
    unfold openLate
    rw [engage]
    obtain ⟨waiting, mark, w⟩ := e
    dsimp only [closeHeldWindow]
    cases mark <;> dsimp only <;> generalize insertMark ev _ _ = claimed <;> obtain ⟨t, answer⟩ := claimed <;>
      cases answer <;> rfl
  · intro ev k s
    refine ⟨knifeEngagedRises_of_down, fun up => ⟨fun id window => ?_, fun other refused => ?_, fun other admitted => ?_⟩⟩
    · rw [knifeEngagedRises_of_up up, endLate_of_late (by rw [knifeOf_modKnife_same, window]), markOf_modKnife]
      dsimp only
      cases (closeKnifeWindow ev k none _).2.bind (·.2) <;> rfl
    · rw [knifeEngagedRises_of_up up, endLate_of_other (by simpa only [knifeOf_modKnife_same] using other),
        knifeOf_modKnife_same, boardAt_modKnife]
      exact if_pos refused
    · rw [knifeEngagedRises_of_up up, endLate_of_other (by simpa only [knifeOf_modKnife_same] using other),
        knifeOf_modKnife_same]
      exact if_neg (Bool.eq_false_iff.mp admitted)
  · intro ev k s
    refine ⟨fun other => ?_, fun b engaged lift => ?_, fun engaged lift served => ?_, fun engaged lift served => ?_⟩
    · rw [knifeLiftedRises]
      exact if_neg (mt beq_iff_eq.mp other)
    · exact (knifeLiftedRises_of_asked engaged lift).trans (liftDone_eq ev k b s)
    · exact (knifeLiftedRises_of_unasked engaged lift).trans (if_pos served)
    · exact (knifeLiftedRises_of_unasked engaged lift).trans (if_neg served)
  · intro s id
    unfold boundaryFrom
    cases markOf s id with
    | none => rfl
    | some m =>
      rw [Option.bind_some, Option.map_some]
      cases m.kind <;> rfl
  · intro ev k s
    refine ⟨fun faulted => ?_, fun engaged running => ?_, fun engaged stopped => ?_, fun up => ?_⟩
    · rw [knifeFaultRises, faulted]
    · rw [knifeFaultRises_of_engaged engaged, modKnife_me, running, if_pos rfl, openKnifeFault, boardAtKnife]
      dsimp only
      generalize insertMark ev _ _ = claimed
      obtain ⟨t, answer⟩ := claimed
      cases answer <;> rfl
    · rw [knifeFaultRises_of_engaged engaged, modKnife_me, stopped]
      exact if_neg Bool.false_ne_true
    · rw [knifeFaultRises]
      rcases up with up | up | up <;> rw [up]
  · intro ev k s
    refine ⟨fun other => ?_, fun faulted served => ?_, fun id rest l faulted served layout => ?_⟩
    · rw [knifeFaultFalls]
      exact if_neg (mt beq_iff_eq.mp other)
    · exact (knifeFaultFalls_of_faulted faulted).trans (endFault_of_free served)
    · refine (knifeFaultFalls_of_faulted faulted).trans ((endFault_of_serving served).trans ?_)
      exact congrArg (fun r => knifeReport k (.faultEnd _ r.2) .faulted none r.1)
        (resendLayout_eq ev (servedLayout_eq_some layout))
  · intro ev k id s
    refine ⟨fun e engage mark => ?_, fun others => ?_⟩
    · unfold withdrawKnife
      dsimp only
      rw [engage]
      simp only [mark, beq_iff_eq, if_true] <;> rfl
    · unfold withdrawKnife
      dsimp only
      cases engage : (knifeOf s k).engage with
      | none => simp only [beq_iff_eq]
      | some e => simp only [beq_iff_eq, if_neg (others e engage)]

end Sys2Proof.Machine
end

section
/-! PROOFS. Cuts and stacks (R86 to R106): cut intake, the plan list, the classification, the gate plan, and the stacker. -/

namespace Sys2Proof.Machine

/-! ## The intake of cuts (R88 to R91) -/

theorem takeCut_of_configuring {seq : Byte} {offset : Nat} {trim : Bool} {s : State} (configuring : s.me.running = false) :
    takeCut seq offset trim s = setCutSeq seq s := by
  simp [takeCut, configuring]

theorem takeCut_of_first {seq : Byte} {offset : Nat} {trim : Bool} {s : State} (running : s.me.running = true)
    (first : s.cs.lastSeq = none) : takeCut seq offset trim s = takeExpectedCut offset trim (setCutSeq seq s) := by
  simp [takeCut, running, first]

theorem takeCut_of_duplicate {seq : Byte} {offset : Nat} {trim : Bool} {s : State} (running : s.me.running = true)
    (same : s.cs.lastSeq = some seq) :
    takeCut seq offset trim s = modCounters (fun c => { c with duplicate := bump c.duplicate 1 }) s := by
  simp [takeCut, running, same]

theorem takeCut_of_next {seq last : Byte} {offset : Nat} {trim : Bool} {s : State} (running : s.me.running = true)
    (held : s.cs.lastSeq = some last) (step : (seq - last).toNat = 1) :
    takeCut seq offset trim s = takeExpectedCut offset trim (setCutSeq seq s) := by
  simp [takeCut, running, held, step]

theorem takeCut_of_gap {seq last : Byte} {offset k : Nat} {trim : Bool} {s : State} (running : s.me.running = true)
    (held : s.cs.lastSeq = some last) (lost : 1 ≤ k) (step : (seq - last).toNat = k + 1) :
    takeCut seq offset trim s = takeGapCut k offset trim (setCutSeq seq s) := by
  obtain ⟨d, rfl⟩ := Nat.exists_eq_add_of_le' lost
  simp [takeCut, running, held, step]

/-- Taking the pieces of a gap: those of one length in order, then the last. -/
theorem foldl_gapPieces (k : Nat) (p e : WebPos) (take : State → WebPos × WebPos × Bool → State) (s : State) :
    let piece := (e - p).toNat / (k + 1)
    (gapPieces k p e).foldl take s = take
      ((List.range k).foldl (fun t i => take t (p + (i * piece : Nat), p + ((i + 1) * piece : Nat), false)) s)
      (p + (k * piece : Nat), e, true) := by
  simp only [gapPieces, List.foldl_append, List.foldl_map, List.foldl_cons, List.foldl_nil]

/-! ## The plan list (R86, R87) -/

theorem report_cs (b : ReportBody) (s : State) : (report b s).cs = s.cs := by
  unfold report
  split <;> rfl

theorem placeStop_cs (s : State) : (placeStop s).cs = s.cs := by
  unfold placeStop
  split
  · split <;> rfl
  · rfl

theorem claimStop_cs (c : StopCause) (s : State) : (claimStop c s).cs = s.cs := by
  unfold claimStop
  split
  · rfl
  · simp [lineReport, report_cs, placeStop_cs]

theorem placeDirective_cs (t : Nat) (d : Directive) (s : State) : (placeDirective t d s).cs = s.cs := by
  unfold placeDirective
  split
  · rfl
  · simp [directiveOverflow, stopClaim, claimStop_cs]

/-- A trim is clean only with the TRIM flag and at the entry's own position. -/
theorem length_filter_trim (l : List PlanEntry) (trim : Bool) (e : WebPos) :
    (l.filter fun x => trim && decide (x.w = e)).length =
      if trim = true then (l.filter fun x => decide (x.w = e)).length else 0 := by
  cases trim
  · simp
  · simp

theorem prunePlan_eq (e : WebPos) (trim : Bool) (s : State) :
    let gone := s.cs.plan.filter fun x => decide (x.w ≤ e)
    let clean := if trim = true then (gone.filter fun x => decide (x.w = e)).length else 0
    prunePlan e trim s = { s with cs := { s.cs with
      plan := s.cs.plan.filter fun x => decide (e < x.w),
      counters := { s.cs.counters with
        cleanTrims := min (2 ^ 32 - 1) (s.cs.counters.cleanTrims + clean),
        missedTrims := min (2 ^ 32 - 1) (s.cs.counters.missedTrims + (gone.length - clean)) } } } := by
  have kept : (s.cs.plan.filter fun x => !decide (x.w ≤ e)) = s.cs.plan.filter fun x => decide (e < x.w) :=
    List.filter_congr fun x _ => by rw [← decide_not, decide_eq_decide, not_le]
  unfold prunePlan
  dsimp only
  rw [length_filter_trim, kept]
  rfl

/-- A new entry stands after those at or below it and, in an ascending list, before all others. -/
theorem placePlan_split (e : PlanEntry) (l : List PlanEntry) : ∃ x y, l = x ++ y ∧ placePlan e l = x ++ e :: y ∧
    (∀ p ∈ x, p.w ≤ e.w) ∧ (l.Pairwise (fun p q => p.w ≤ q.w) → ∀ p ∈ y, e.w < p.w) := by
  induction l with
  | nil => exact ⟨[], [], rfl, rfl, by simp, by simp⟩
  | cons h t ih =>
    by_cases below : h.w ≤ e.w
    · obtain ⟨x, y, rfl, placed, low, high⟩ := ih
      refine ⟨h :: x, y, rfl, ?_, ?_, fun sorted => high sorted.of_cons⟩
      · rw [placePlan, if_pos below, placed]
        rfl
      · exact List.forall_mem_cons.mpr ⟨below, low⟩
    · refine ⟨[], h :: t, rfl, ?_, by simp, fun sorted => ?_⟩
      · rw [placePlan, if_neg below]
        rfl
      · have above : e.w < h.w := not_le.mp below
        exact List.forall_mem_cons.mpr
          ⟨above, fun p mem => above.trans_le ((List.pairwise_cons.mp sorted).1 p mem)⟩

/-! ## The classification of a sheet (R94, R95) -/

theorem mapCause_eq (s : State) (a b : WebPos) : mapCause (queryMap s a b) =
    mapCauses.find? fun c => s.sm.marks.any fun m => overlaps s m a b && markCause m == c := by
  simp only [mapCause, queryMap, List.any_filter]

theorem markCause_mem (m : Mark) : markCause m ∈ mapCauses := by
  unfold markCause
  split <;> decide

/-- Every mark has its cause among those looked for, so with none found no mark overlaps the sheet. -/
theorem mapCause_eq_none_iff (s : State) (a b : WebPos) :
    mapCause (queryMap s a b) = none ↔ ∀ m ∈ s.sm.marks, overlaps s m a b = false := by
  rw [mapCause_eq, List.find?_eq_none]
  constructor
  · intro none m mem
    have absent := none (markCause m) (markCause_mem m)
    by_contra overlap
    exact absent (List.any_eq_true.mpr ⟨m, mem, by simp [Bool.not_eq_false _ ▸ overlap]⟩)
  · intro clear c _ found
    obtain ⟨m, mem, both⟩ := List.any_eq_true.mp found
    rw [clear m mem] at both
    exact Bool.false_ne_true both

theorem mapCause_none_of_classify {o : Order} {length : Nat} {a b : WebPos} {s t : State}
    (good : classify (some o) length a b s = (t, none)) : mapCause (queryMap s a b) = none := by
  cases cause : mapCause (queryMap s a b) with
  | none => rfl
  | some c => simp [classify, boardCause, cause] at good

theorem classify_of_mapCause {length : Nat} {a b : WebPos} {s : State} {c : RejectCause}
    (cause : mapCause (queryMap s a b) = some c) (o : Order) : classify (some o) length a b s = (s, some c) := by
  simp only [classify, boardCause, cause]

/-- A sheet clear of marks is examined against its length, the order's count and the stacker, in that order. -/
theorem classify_of_clear {length : Nat} {a b : WebPos} {s : State} (clear : mapCause (queryMap s a b) = none) (o : Order) :
    classify (some o) length a b s =
      if length + s.pt.geometry.shortTolerance < o.cutLength then (s, some .short)
      else if (ceilDiv o.target o.lanes + o.overrun) * o.lanes ≤ o.good then (s, some .surplus)
      else examineStacker o s := by
  simp only [classify, boardCause, clear, isShort, isSurplus, decide_eq_true_eq]
  by_cases short : length + s.pt.geometry.shortTolerance < o.cutLength
  · simp only [if_pos short]
  · by_cases surplus : (ceilDiv o.target o.lanes + o.overrun) * o.lanes ≤ o.good
    · simp only [if_neg short, if_pos surplus]
    · simp only [if_neg short, if_neg surplus]

theorem examineStacker_of_faulted {s : State} (faulted : stackerFaulted s = true) (o : Order) :
    examineStacker o s = (s, some .stackerFault) := if_pos faulted

theorem stackerFaulted_iff (s : State) : stackerFaulted s = true ↔
    s.cs.stacker.faulted = true ∨ (roleWord s .stacker).getLsbD 3 = true ∨ (roleWord s .gate).getLsbD 3 = true := by
  simp only [stackerFaulted, faultBit, Bool.or_eq_true, or_assoc]

theorem examineStacker_of_building {s : State} (sound : stackerFaulted s = false)
    (building : s.cs.stacker.transferring = false) (o : Order) : examineStacker o s = (s, none) := by
  simp [examineStacker, sound, building]

theorem examineStacker_of_bare {s : State} (sound : stackerFaulted s = false) (moving : s.cs.stacker.transferring = true)
    (bare : s.cs.stacker.deck = none) (o : Order) : examineStacker o s =
      if s.pt.geometry.deckCapacity = 0 then (s, some .stackerFull) else (s, none) := by
  simp [examineStacker, sound, moving, deckClosed, deckCuts, bare, @eq_comm _ 0]

theorem examineStacker_of_deck {s : State} {d : Stack} (sound : stackerFaulted s = false)
    (moving : s.cs.stacker.transferring = true) (deck : s.cs.stacker.deck = some d) (o : Order) : examineStacker o s =
      if d.closePending ≠ none ∨ d.order ≠ o.id then (markDeck .orderEnd s, some .stackerBusy)
      else if d.cuts = s.pt.geometry.deckCapacity then (s, some .stackerFull) else (s, none) := by
  simp [examineStacker, sound, moving, deckClosed, deckCuts, deck, Option.isSome_iff_ne_none]

/-! ## The gate plan (R97) -/

theorem applyGate_none {start : WebPos} {s : State} : applyGate none start s =
    if s.cs.gate.reject = false then (s, none)
    else if dwellPassed s start then (gateAt false start s, none) else (s, some .gateDwell) := by
  cases reject : s.cs.gate.reject <;> simp [applyGate, reject]

theorem dwellPassed_iff (s : State) (start : WebPos) : dwellPassed s start = true ↔
    ∀ w, s.cs.gate.lastChange = some w → w + s.pt.geometry.gateDwell ≤ start := by
  unfold dwellPassed
  cases s.cs.gate.lastChange <;> simp

theorem cause_none_of_applyGate {c : Option RejectCause} {start : WebPos} {s : State} (good : (applyGate c start s).2 = none) :
    c = none := by
  cases c with
  | none => rfl
  | some c => cases good

/-! ## The gate plan and the cutoff (R97, R98) -/

theorem handBit_of_rise (old new : Word16) (i : Nat) (up : State → State) (s : State) :
    handBit old new i up (fun s => s) s = if old.getLsbD i = false ∧ new.getLsbD i = true then up s else s := by
  simp [handBit, bitRises]

/-- Settles O31: the gate plan by its cases, and the cutoff's fault bit as the model takes it. -/
theorem gatePlanCases : Obligations.GatePlanCases := by
  refine ⟨fun start s => ⟨fun c accept => ?_, fun c reject => ?_, fun accept => ?_, fun reject dwell => ?_,
    fun w reject change early => ?_⟩, fun address offset old new s => ?_⟩
  · simp only [applyGate, accept]
    rfl
  · simp only [applyGate, reject, if_true]
  · rw [applyGate_none, if_pos accept]
  · rw [applyGate_none, if_neg (Bool.eq_false_iff.not_left.mpr reject), (dwellPassed_iff s start).mpr dwell]
    rfl
  · have short : ¬dwellPassed s start = true := fun passed =>
      not_le.mpr early ((dwellPassed_iff s start).mp passed w change)
    rw [applyGate_none, if_neg (Bool.eq_false_iff.not_left.mpr reject), if_neg short]
  · simp only [dispatchWord, handBit_of_rise, cutoffFaultRises]
    by_cases running : s.me.running = true
    · simp only [running, if_true, true_and]
      rfl
    · simp only [Bool.eq_false_iff.mpr running, Bool.false_eq_true, if_false, false_and, ite_self]

/-! ## The taking of a sheet (R92, R93, R96) -/

theorem stackOrderChange_of_stack {o : Order} {k : Stack} {s : State} (current : s.cs.stacker.current = some k) :
    stackOrderChange (some o) s =
      if s.cs.stacker.transferring = false ∧ k.order ≠ o.id then closeCurrent .orderEnd s else s := by
  simp only [stackOrderChange, current, Bool.and_eq_true, Bool.not_eq_true', bne_iff_ne]

theorem stackOrderChange_of_none {s : State} (o : Option Order) (current : s.cs.stacker.current = none) :
    stackOrderChange o s = s := by
  cases o <;> simp only [stackOrderChange, current]

theorem closeAtEnd_of_end {id : OrderId} {e w : WebPos} {s : State} (found : (orderOf s id).bind (·.endW) = some w) :
    closeAtEnd id e s = if w ≤ e then stackOrderEnd id (closeOrder id s) else s := by
  simp only [closeAtEnd, found, Option.map_some, Option.getD_some, decide_eq_true_eq, endOrder]

theorem closeAtEnd_of_none {id : OrderId} {e : WebPos} {s : State} (none : (orderOf s id).bind (·.endW) = none) :
    closeAtEnd id e s = s := by
  rw [closeAtEnd, none]
  rfl

theorem countSheetOf_some (o : Order) (c : Option RejectCause) (e : WebPos) (s : State) :
    let t := countClaim o.id c (modCounters (fun k => { k with
      taken := bump k.taken 1, dwellLosses := if c == some .gateDwell then bump k.dwellLosses 1 else k.dwellLosses }) s)
    countSheetOf (some o) c e s = if c = none then countSheet o e t else t := by
  simp only [countSheetOf, Option.isNone_iff_eq_none]
  rfl

/-- The rest of the taking of a sheet, for the order `o` it is attributed to (R96, steps 4 to 8). -/
def takeExtent (a e qs qe : WebPos) (trim : Bool) (o : Option Order) (s : State) : State :=
  let x := classify o (e - a).toNat qs qe s
  let g := applyGate x.2 a x.1
  let t := prunePlan e trim (countSheetOf o g.2 e g.1)
  (o.map fun o => closeAtEnd o.id e t).getD t

theorem takeExtent_some (a e qs qe : WebPos) (trim : Bool) (o : Order) (s : State) :
    let x := classify (some o) (e - a).toNat qs qe s
    let g := applyGate x.2 a x.1
    takeExtent a e qs qe trim (some o) s = closeAtEnd o.id e (prunePlan e trim (countSheetOf (some o) g.2 e g.1)) := rfl

theorem takeSheet_eq {a e : WebPos} {s closed changed : State} {o : Option Order} (earlier : closeEarlier a s = closed)
    (attributed : sheetOrder closed a = o) (changing : stackOrderChange o closed = changed) (qs qe : WebPos) (trim : Bool) :
    takeSheet a e qs qe trim s = takeExtent a e qs qe trim o changed := by
  unfold takeSheet
  dsimp only
  rw [earlier, attributed, changing]
  cases o <;> rfl

/-- Settles O30: a candidate is clear of marks (`mapCause_eq_none_iff`), and the cases of the classification. -/
theorem goodSheetMeetsNoMark : Obligations.GoodSheetMeetsNoMark := by
  refine ⟨fun o length a b s t good => (mapCause_eq_none_iff s a b).mp (mapCause_none_of_classify good), fun _ _ _ _ => rfl,
    fun c start s => cause_none_of_applyGate, fun a e qs qe trim s => ?_,
    fun o length a b s => ⟨fun c cause => ?_, fun clear => ?_⟩,
    fun id w u => ⟨fun _ _ _ => rfl, fun _ => rfl, fun _ _ => ⟨rfl, rfl, rfl, rfl, rfl, rfl, rfl⟩⟩⟩
  · intro ended closed o changed x g one counted
    have earlier : closeEarlier a s = closed :=
      congrArg (fun p => ((s.os.orders.filter p).map Order.id).foldl (fun t i => stackOrderEnd i (closeOrder i t)) s)
        (funext fun o => by cases o.endW <;> rfl)
    have attributed : sheetOrder closed a = o :=
      congrArg (closed.os.orders.find? ·) (funext fun x => by unfold boardHolds; cases x.startW <;> cases x.endW <;> rfl)
    have changing : stackOrderChange o closed = changed := by
      dsimp only [changed]
      cases current : closed.cs.stacker.current with
      | none => exact (stackOrderChange_of_none o current).trans (by cases o <;> rfl)
      | some k => cases o with
        | none => rfl
        | some o => exact stackOrderChange_of_stack current
    refine (takeSheet_eq earlier attributed changing qs qe trim).trans ?_
    clear_value closed o changed
    cases o with
    | none => rfl
    | some o =>
      refine (takeExtent_some a e qs qe trim o changed).trans ?_
      let claimed := countClaim o.id g.2 counted
      let pruned := prunePlan e trim (if g.2 = none then countSheet o e claimed else claimed)
      have same : prunePlan e trim (countSheetOf (some o) g.2 e g.1) = pruned :=
        congrArg (prunePlan e trim) (countSheetOf_some o g.2 e g.1)
      refine (congrArg (closeAtEnd o.id e) same).trans ?_
      change _ = match (orderOf pruned o.id).bind (·.endW) with
        | some w => if w ≤ e then stackOrderEnd o.id (closeOrder o.id pruned) else pruned
        | none => pruned
      cases found : (orderOf pruned o.id).bind (·.endW) with
      | none => exact closeAtEnd_of_none found
      | some w => exact closeAtEnd_of_end found
  · exact classify_of_mapCause ((mapCause_eq s a b).trans cause) o
  · rw [classify_of_clear ((mapCause_eq_none_iff s a b).mpr clear)]
    refine if_congr Iff.rfl rfl (if_congr Iff.rfl rfl ?_)
    by_cases faulted : stackerFaulted s = true
    · rw [examineStacker_of_faulted faulted, if_pos ((stackerFaulted_iff s).mp faulted)]
    rw [if_neg (mt (stackerFaulted_iff s).mpr faulted)]
    have sound := Bool.eq_false_iff.mpr faulted
    cases moving : s.cs.stacker.transferring with
    | false => exact (examineStacker_of_building sound moving o).trans (if_pos rfl).symm
    | true =>
      refine Eq.trans ?_ (if_neg Bool.noConfusion).symm
      cases deck : s.cs.stacker.deck with
      | none => exact examineStacker_of_bare sound moving deck o
      | some d => exact examineStacker_of_deck sound moving deck o

/-! ## Stacks and transfers (R99 to R106) -/

theorem transferExpiry_of_running {s : State} (on : s.cs.stacker.timer ≠ none) : transferExpiry s =
    if s.pt.stopped = true ∧ lineCount s - s.pt.geometry.gateOffset < s.cs.stacker.position then
      modStacker (fun r => { r with timer := some s.pt.geometry.transferTimeout }) s
    else
      let s := modStacker (fun r => { r with faulted := true, timer := none }) s
      stopClaim .stackerFault (claimStop .stackerFault ((s.cs.stacker.current.map (stackReport · .faulted s)).getD s)) := by
  unfold transferExpiry
  rw [if_neg (by simpa using on)]
  simp only [Bool.and_eq_true, decide_eq_true_eq]
  refine if_congr Iff.rfl rfl ?_
  cases (modStacker (fun r => { r with faulted := true, timer := none }) s).cs.stacker.current <;> rfl

/-- A stack with one more sheet ending at `e`, or the order's first. -/
def grownStack (o : Order) (e : WebPos) (s : State) (k : Option Stack) : Stack :=
  (k.map fun k => { k with cuts := k.cuts + 1, lastEnd := e }).getD (openStack o e s).2

theorem countCurrent_eq (o : Order) (e : WebPos) (s : State) :
    let k := grownStack o e s s.cs.stacker.current
    let t := { s with cs := { s.cs with
      stackCounter := if s.cs.stacker.current = none then s.cs.stackCounter + 1 else s.cs.stackCounter,
      stacker := { s.cs.stacker with current := some k } } }
    countCurrent o e s = if k.cuts = k.height then closeCurrent .height t else t := by
  unfold countCurrent
  cases s.cs.stacker.current <;> simp only [beq_iff_eq] <;> rfl

theorem countDeck_eq (o : Order) (e : WebPos) (s : State) :
    let k := grownStack o e s s.cs.stacker.deck
    let t := { s with cs := { s.cs with
      stackCounter := if s.cs.stacker.deck = none then s.cs.stackCounter + 1 else s.cs.stackCounter,
      stacker := { s.cs.stacker with deck := some k } } }
    countDeck o e s = if k.cuts = k.height then markDeck .height t else t := by
  unfold countDeck
  cases s.cs.stacker.deck <;> simp only [beq_iff_eq] <;> rfl

/-- The state once the deck stack has become current, with the stacker's timer at `timer` (R104). -/
def deckPromoted (timer : Option Nat) (s : State) : State :=
  { s with cs := { s.cs with stacker := { s.cs.stacker with
    timer := timer, faulted := false, current := s.cs.stacker.deck.map fun d => { d with closePending := none },
    deck := none } } }

/-- The end of a transfer (R104, R106): a close-pending stack is closed at once, and otherwise the stacker builds. -/
def transferEnded (timer : Option Nat) (s : State) : State :=
  ((s.cs.stacker.deck.bind (·.closePending)).map fun c => closeCurrent c (deckPromoted timer s)).getD
    (modStacker (fun r => { r with transferring := false }) (deckPromoted timer s))

theorem promoteDeck_eq {timer : Option Nat} {s t : State}
    (left : t = { s with cs := { s.cs with stacker := { s.cs.stacker with timer := timer, faulted := false, current := none } } }) :
    promoteDeck t = transferEnded timer s := by
  subst left
  unfold promoteDeck transferEnded
  cases s.cs.stacker.deck.bind (·.closePending) <;> rfl

theorem transferDone_eq {s : State} (sound : s.cs.stacker.faulted = false) :
    transferDone s = if s.cs.stacker.transferring = true then transferEnded none s else s := by
  refine if_congr Iff.rfl (promoteDeck_eq ?_) rfl
  rw [← sound]
  rfl

theorem stackerRecovery_eq (s : State) : stackerRecovery s =
    if (roleWord s .stacker).getLsbD 3 = false ∧ (roleWord s .stacker).getLsbD 0 = true
    then transferEnded s.cs.stacker.timer s else s := by
  simp only [stackerRecovery, Bool.and_eq_true, Bool.not_eq_true']
  exact if_congr Iff.rfl (promoteDeck_eq rfl) rfl

/-- Settles O32: the transfer timer, the counting into stacks, their closing and the promotion of the deck. -/
theorem transferTimerExpiry : Obligations.TransferTimerExpiry := by
  refine ⟨fun s => ⟨fun off => ?_, fun on stopped short => ?_, fun k on current due => ?_⟩, fun o e s => ⟨?_, ?_⟩, fun _ _ => rfl,
    fun c k s => ⟨fun none => ?_, fun current => ?_⟩, fun id s => ?_, fun s => ?_, fun k c s => ?_⟩
  · exact congrArg Host.Outcome.next (if_pos (Option.isNone_iff_eq_none.mpr off))
  · refine congrArg Host.Outcome.next ((transferExpiry_of_running on).trans (if_pos ?_))
    exact ⟨stopped, short⟩
  · refine congrArg Host.Outcome.next ((transferExpiry_of_running on).trans ((if_neg due).trans ?_))
    simp only [modStacker, current]
    rfl
  · intro building
    rw [countSheet, building]
    refine (countCurrent_eq o e s).trans ?_
    cases s.cs.stacker.current <;> rfl
  · intro moving
    rw [countSheet, moving]
    refine (countDeck_eq o e s).trans ?_
    cases s.cs.stacker.deck <;> rfl
  · simp only [closeCurrent, none]
  · simp only [closeCurrent, current]
    rfl
  · simp only [stackOrderEnd, beq_iff_eq]
  · intro k promoted after recovered
    have ended : ∀ timer, transferEnded timer s = after timer := fun timer => by
      dsimp only [after, k, transferEnded]
      cases s.cs.stacker.deck.bind (·.closePending) <;> rfl
    have recovery : stackerRecovery s = recovered := (stackerRecovery_eq s).trans (if_congr Iff.rfl (ended _) rfl)
    refine ⟨fun faulted => ⟨fun b => (if_pos faulted).trans recovery, (if_pos faulted).trans recovery⟩,
      fun sound => ⟨?_, if_neg (Bool.eq_false_iff.mp sound), ?_⟩⟩
    · exact (if_neg (Bool.eq_false_iff.mp sound)).trans (if_neg Bool.false_ne_true)
    · refine ((if_neg (Bool.eq_false_iff.mp sound)).trans (if_pos rfl)).trans ((transferDone_eq sound).trans ?_)
      exact if_congr Iff.rfl (ended none) rfl
  · cases c <;> rfl

/-- Settles O29: the sequence cases by the `takeCut` lemmas, the pieces of a gap by `foldl_gapPieces`, and the plan list by
`prunePlan_eq` and `placePlan_split`. -/
theorem cutReachesTheClassifier : Obligations.CutReachesTheClassifier := by
  refine ⟨fun h offset flags i e s observes cutoff => ?_, fun seq offset trim s => ?_, fun offset trim s => rfl,
    fun k offset trim s => ⟨fun first => ?_, fun p held => ?_⟩, prunePlan_eq, fun b c n s => ⟨fun gone => ?_, fun o found => ?_⟩,
    fun id s => ?_⟩
  · exact congrArg Host.Outcome.next ((receiveObserved_of_observes observes ..).trans (if_pos (by simpa using cutoff)))
  · refine ⟨takeCut_of_configuring, takeCut_of_duplicate, fun running expected => ?_, fun last k => takeCut_of_gap⟩
    rcases expected with first | held
    · exact takeCut_of_first running first
    · exact takeCut_of_next running held (by rw [sub_sub_cancel]; rfl)
  · simp only [takeGapCut, first]
    rfl
  · simp only [takeGapCut, held]
    rw [foldl_gapPieces]
    rfl
  · simp only [cutoffApproach, gone]
  · obtain ⟨x, y, split, placed, low, high⟩ := placePlan_split ⟨b.mark, b.w, c, n, o.cutLength⟩ s.cs.plan
    refine ⟨x, y, ?_, low, high, ?_⟩
    · rw [direct, placeDirective_cs, split]
    · simp only [cutoffApproach, found]
      rw [direct, placeDirective_cs, placed]
  · unfold withdrawPlan
    cases s.cs.plan.find? (fun e => e.mark == id) <;> rfl

end Sys2Proof.Machine
end

section
/-! PROOFS. STATE frames and readings (R155, R174 to R178): the stored words, change reporting, the holding slots, and the dispatch
of changed bits. -/

namespace Sys2Proof.Machine

/-! ## The stored words (R174, R176) -/

theorem report_stations (b : ReportBody) (s : State) : (report b s).ri.stations = s.ri.stations := by
  unfold report
  split <;> rfl

theorem placeChange_stations (i : Nat) (watch : Word16) (r : ChangeReport) (s : State) :
    (placeChange i watch r s).ri.stations = s.ri.stations := by
  unfold placeChange
  split
  · exact report_stations ..
  · split <;> rfl

theorem reportChange_stations (i : Nat) (e : Station) (word : Word16) (s : State) :
    (reportChange i e word s).ri.stations = s.ri.stations := by
  unfold reportChange
  dsimp only
  split
  · rfl
  · exact placeChange_stations ..

/-- What a STATE frame sets off leaves the station table with the new word. -/
theorem takeState_stations (i : Nat) (e : Station) (w o : Word16) (s : State) :
    (takeState i e w o s).ri.stations = s.ri.stations.set i (some { e with word := w, lastOffset := o }) :=
  ((Works.refl _).dispatchWord ..).frame.stations.trans (reportChange_stations ..)

theorem forward_stations (f : RingFrame) (s : State) : (forward f s).ri.stations = s.ri.stations := by
  unfold forward
  split <;> rfl

/-! ## Change reporting and the holding slots (R177, R178) -/

theorem modSecondSlot_skip {i : Nat} {f : HeldReport → HeldReport} {a : List HeldReport} (others : ∀ z ∈ a, z.entry ≠ i) (n : Nat)
    (l : List HeldReport) : modSecondSlot i f n (a ++ l) = a ++ modSecondSlot i f n l := by
  induction a with
  | nil => rfl
  | cons z t ih =>
    obtain ⟨other, rest⟩ := List.forall_mem_cons.mp others
    rw [List.cons_append, modSecondSlot, if_neg (mt beq_iff_eq.mp other), ih rest, List.cons_append]

theorem modSecondSlot_second {i : Nat} {f : HeldReport → HeldReport} {a b c : List HeldReport} {x y : HeldReport}
    (first : x.entry = i) (second : y.entry = i) (others : ∀ z ∈ a ++ b, z.entry ≠ i) :
    modSecondSlot i f 0 (a ++ [x] ++ b ++ [y] ++ c) = a ++ [x] ++ b ++ [f y] ++ c := by
  obtain ⟨before, between⟩ := List.forall_mem_append.mp others
  have one : modSecondSlot i f 0 (x :: (b ++ ([y] ++ c))) = x :: modSecondSlot i f 1 (b ++ ([y] ++ c)) := by
    rw [modSecondSlot, if_pos (beq_iff_eq.mpr first)]
    rfl
  have two : modSecondSlot i f 1 (y :: c) = f y :: c := by
    rw [modSecondSlot, if_pos (beq_iff_eq.mpr second)]
    rfl
  simp only [List.append_assoc]
  rw [modSecondSlot_skip before, List.singleton_append, one, modSecondSlot_skip between, List.singleton_append, two]
  rfl

theorem reportChange_of_same {i : Nat} {e : Station} {w : Word16} {s : State} (same : (e.word ^^^ w) &&& e.watch = 0) :
    reportChange i e w s = s := by
  rw [reportChange]
  exact if_pos (beq_iff_eq.mpr same)

theorem reportChange_of_changed {i : Nat} {e : Station} {w : Word16} {s : State} (changed : (e.word ^^^ w) &&& e.watch ≠ 0) :
    reportChange i e w s = placeChange i e.watch
      { address := e.address, role := e.role, oldWord := e.word, newWord := w, changed := (e.word ^^^ w) &&& e.watch,
        overwritten := false, lineCount := s.pt.lineCount } s := by
  rw [reportChange]
  exact if_neg (mt beq_iff_eq.mp changed)

theorem placeChange_of_room {i : Nat} {watch : Word16} {r : ChangeReport} {s : State} (free : (slotsOf s i).length = 0)
    (room : s.ri.reports.length < 16) : placeChange i watch r s = report (.change r) s := by
  rw [placeChange]
  refine if_pos ?_
  rw [List.eq_nil_of_length_eq_zero free]
  exact decide_eq_true room

theorem placeChange_of_blocked {i : Nat} {watch : Word16} {r : ChangeReport} {s : State}
    (blocked : ¬((slotsOf s i).length = 0 ∧ s.ri.reports.length < 16)) : placeChange i watch r s =
      if (slotsOf s i).length < 2 then setHeld (s.ri.held ++ [⟨i, r⟩]) s
      else setHeld (modSecondSlot i (mergeReport watch r) 0 s.ri.held) s := by
  rw [placeChange]
  refine if_neg fun room => blocked ?_
  rw [Bool.and_eq_true, List.isEmpty_iff_length_eq_zero, decide_eq_true_eq] at room
  exact room

theorem moveHeld_of_empty (n : Nat) {s : State} (empty : s.ri.held = []) : moveHeld n s = s := by
  cases n with
  | zero => rfl
  | succ n => simp only [moveHeld, empty]

theorem moveHeld_of_full (n : Nat) {s : State} (full : 16 ≤ s.ri.reports.length) : moveHeld n s = s := by
  cases n with
  | zero => rfl
  | succ n =>
    cases held : s.ri.held with
    | nil => exact moveHeld_of_empty _ held
    | cons x t =>
      simp only [moveHeld, held]
      exact if_neg (not_lt.mpr full)

theorem moveHeld_of_room (n : Nat) {s : State} {x : HeldReport} {t : List HeldReport} (held : s.ri.held = x :: t)
    (room : s.ri.reports.length < 16) : moveHeld (n + 1) s = moveHeld n (report (.change x.report) (setHeld t s)) := by
  simp only [moveHeld, held]
  exact if_pos room

/-! ## Dispatch (R176) -/

theorem handBit_eq (old new : Word16) (i : Nat) (up down : State → State) (s : State) : handBit old new i up down s =
    if old.getLsbD i = false ∧ new.getLsbD i = true then up s
    else if old.getLsbD i = true ∧ new.getLsbD i = false then down s else s := by
  simp only [handBit, bitRises, bitFalls, Bool.and_eq_true, Bool.not_eq_true']

/-- Settles O33: the stored word by `takeState_stations`, change reporting by the `reportChange` and `placeChange` lemmas, and the
dispatch bit by bit. -/
theorem stateFrameReplacesTheWord : Obligations.StateFrameReplacesTheWord := by
  refine ⟨fun h w o i e s observes => ?_, fun r s => ⟨fun absent => ?_, fun a e b table role first => ?_⟩, fun _ _ _ _ _ => rfl,
    fun i e w s => ?_, fun n s => ⟨rfl, moveHeld_of_empty n, moveHeld_of_full n, fun x t => moveHeld_of_room n⟩,
    fun k address offset old new s => ?_⟩
  · refine ⟨fun notSupervisor notPanel => ⟨?_, ?_⟩, fun silent => ?_⟩
    · refine congrArg Host.Outcome.next ((receiveObserved_of_observes observes ..).trans (if_pos ?_))
      exact (roleSends_iff ..).mpr (.inr (.inr (.inl ⟨rfl, notSupervisor, notPanel⟩)))
    · rw [takeState_stations, forward_stations]
    · refine congrArg Host.Outcome.next ((receiveObserved_of_observes observes ..).trans (if_neg ?_))
      rcases silent with role | role <;> rw [role] <;> decide
  · rw [roleWord, stationIn_of_absent absent]
    rfl
  · rw [roleWord, stationIn_of_first table role first]
    rfl
  · refine ⟨reportChange_of_same, fun changed free room => ?_, fun changed blocked few => ?_,
      fun a b c x y changed held first second others => ?_⟩
    · exact (reportChange_of_changed changed).trans (placeChange_of_room free room)
    · exact (reportChange_of_changed changed).trans ((placeChange_of_blocked blocked).trans (if_pos few))
    · have two : 2 ≤ (slotsOf s i).length := by
        simp only [slotsOf, held, List.filter_append, List.length_append, List.filter_singleton, first, second, beq_self_eq_true,
          cond_true, List.length_singleton]
        omega
      have blocked : ¬((slotsOf s i).length = 0 ∧ s.ri.reports.length < 16) := fun free => by omega
      refine (reportChange_of_changed changed).trans ((placeChange_of_blocked blocked).trans ((if_neg (not_lt.mpr two)).trans ?_))
      rw [held, modSecondSlot_second first second others]
      rfl
  · intro bit knife
    have same : handBit old new = bit := by
      funext i up down t
      exact handBit_eq ..
    have knives : ∀ k, dispatchKnife k old new s = knife k := fun k => by
      unfold dispatchKnife
      rw [same]
      rfl
    refine ⟨?_, knives .a, knives .b, ?_, ?_, ?_, ?_⟩
    · unfold dispatchWord dispatchStand
      rw [same]
      rfl
    · unfold dispatchWord
      rw [same]
      rfl
    · unfold dispatchWord dispatchStacker
      rw [same]
    · unfold dispatchWord
      rw [same]
    · simp [dispatchWord]

end Sys2Proof.Machine
end

section
/-! PROOFS. The Trip and Standby unit's readings (R155 to R160): the zone a reading belongs to, the conditions of the levels, and
what a rising and a falling do. -/

namespace Sys2Proof.Machine

/-! ## Readings (R155) -/

/-- A zone takes the readings of its station and channel. -/
def takesReading (s : State) (origin channel n : Nat) : Prop :=
  ∃ z, s.zr.zones[n]? = some z ∧ z.placed = true ∧ z.station = some origin ∧ z.channel = channel

theorem readingZone_eq (s : State) (origin channel : Nat) : readingZone s origin channel =
    (List.range s.zr.zones.length).find? fun n => ((zoneOf s n).map (·.placed)).getD false &&
      ((zoneOf s n).map fun z => z.station == some origin && z.channel == channel).getD false := by
  rw [readingZone, placedZones, List.find?_filter]
  simp only [Bool.decide_and, Bool.decide_eq_true]

theorem takesReading_iff (s : State) (origin channel n : Nat) : takesReading s origin channel n ↔
    (((zoneOf s n).map (·.placed)).getD false &&
      ((zoneOf s n).map fun z => z.station == some origin && z.channel == channel).getD false) = true := by
  unfold takesReading zoneOf
  cases s.zr.zones[n]? with
  | none => simp
  | some z => simp

theorem lt_of_takesReading {s : State} {origin channel n : Nat} (takes : takesReading s origin channel n) :
    n < s.zr.zones.length := by
  obtain ⟨z, found, _⟩ := takes
  exact (List.getElem?_eq_some_iff.mp found).1

theorem readingZone_eq_some_iff (s : State) (origin channel n : Nat) : readingZone s origin channel = some n ↔
    takesReading s origin channel n ∧ ∀ k < n, ¬takesReading s origin channel k := by
  simp only [readingZone_eq, List.find?_range_eq_some, takesReading_iff, Bool.not_eq_true', Bool.not_eq_true, List.mem_range]
  constructor
  · rintro ⟨takes, _, first⟩
    exact ⟨takes, first⟩
  · rintro ⟨takes, first⟩
    exact ⟨takes, lt_of_takesReading ((takesReading_iff ..).mpr takes), first⟩

theorem readingZone_eq_none_iff (s : State) (origin channel : Nat) :
    readingZone s origin channel = none ↔ ∀ n, ¬takesReading s origin channel n := by
  rw [readingZone_eq, List.find?_eq_none]
  constructor
  · intro none n takes
    exact none n (List.mem_range.mpr (lt_of_takesReading takes)) ((takesReading_iff ..).mp takes)
  · intro none n _ takes
    exact none n ((takesReading_iff ..).mpr takes)

theorem takeReading_of_unmatched {ev : State → State} {origin channel : Nat} {v : Int} {s : State}
    (none : readingZone s origin channel = none) : takeReading ev origin channel v s =
      { s with ts := { s.ts with unmatched := bump s.ts.unmatched 1 } } := by
  rw [takeReading, none]

theorem takeReading_of_zone {ev : State → State} {origin channel n : Nat} {v : Int} {s : State}
    (found : readingZone s origin channel = some n) :
    let t := { s with ts := { s.ts with
      zones := s.ts.zones.modify n fun x => { x with lastReading := some ⟨v, s.pt.lineCount⟩ },
      readingsTaken := bump s.ts.readingsTaken 1 } }
    takeReading ev origin channel v s = if s.me.running = true then evaluateReading ev n v t else t := by
  rw [takeReading, found]
  rfl

/-- Settles O34: the zone by `readingZone_eq_some_iff`, the counters by the `takeReading` lemmas. -/
theorem readingIsMatchedAndCounted : Obligations.ReadingIsMatchedAndCounted := by
  refine ⟨fun h channel value i e s observes zone => ?_, fun origin channel s =>
    ⟨fun n => readingZone_eq_some_iff s origin channel n, readingZone_eq_none_iff s origin channel⟩,
    fun origin channel v s => ⟨takeReading_of_unmatched, fun n found => ⟨fun configuring => ?_, fun running => ?_⟩⟩⟩
  · exact congrArg Host.Outcome.next ((receiveObserved_of_observes observes ..).trans (if_pos (by rw [zone]; decide)))
  · exact (takeReading_of_zone found).trans (if_neg (Bool.eq_false_iff.mp configuring))
  · exact (takeReading_of_zone found).trans (if_pos running)

/-! ## The conditions of the levels (R156, R157) -/

theorem levelOf_setLevel {α : Type} (p : PerLevel α) (l l' : Level) (x : α) :
    levelOf (setLevel l x p) l' = if l' = l then x else levelOf p l' := by
  cases l <;> cases l' <;> rfl

theorem tripOf_of_get {s : State} {n : Nat} {x : ZoneTrip} (found : s.ts.zones[n]? = some x) : tripOf s n = x := by
  rw [tripOf, List.getD_eq_getElem?_getD, found, Option.getD_some]

theorem readingPartAfter_eq (z : Zone) (v : Int) (was : Bool) :
    readingPartAfter z v was = (risesAt z v .cutout || (was && !fallsAt z v .cutout)) := by
  unfold readingPartAfter
  cases risesAt z v .cutout <;> cases fallsAt z v .cutout <;> cases was <;> rfl

theorem liveAfter_of_held (z : Zone) {t : ZoneTrip} (v : Int) (held : t.held = true) :
    (liveAfter z t v).low = t.live.low ∧ (liveAfter z t v).high = t.live.high := by
  simp [liveAfter, held]

theorem low_liveAfter_iff (z : Zone) {t : ZoneTrip} (v : Int) (free : t.held = false) :
    (liveAfter z t v).low = true ↔ (t.live.low = false ∧ risesAt z v .low = true) ∨ (t.live.low = true ∧
      fallsAt z v .low = false ∧ ¬(t.live.high = false ∧ risesAt z v .high = true)) := by
  rw [not_and_or]
  simp [liveAfter, free]

theorem high_liveAfter_iff (z : Zone) {t : ZoneTrip} (v : Int) (free : t.held = false) :
    (liveAfter z t v).high = true ↔ (t.live.high = false ∧ risesAt z v .high = true) ∨ (t.live.high = true ∧
      fallsAt z v .high = false ∧ ¬(t.live.low = false ∧ risesAt z v .low = true)) := by
  rw [not_and_or]
  simp [liveAfter, free]

theorem fallIf_eq (ev : State → State) (n : Nat) (after : PerLevel Bool) (l : Level) (s : State) : fallIf ev n after l s =
    if levelOf (tripOf s n).live l = true ∧ levelOf after l = false then (lowerLevel ev n l s).1 else s := by
  simp only [fallIf, Bool.and_eq_true, Bool.not_eq_true']

theorem riseIf_eq (ev : State → State) (n : Nat) (z : Zone) (v : Int) (after : PerLevel Bool) (l : Level) (s : State) :
    riseIf ev n z v after l s = if levelOf (tripOf s n).live l = false ∧ levelOf after l = true then
      raiseLevel ev n l (some v) (thresholdOf z l) s else s := by
  simp only [riseIf, Bool.and_eq_true, Bool.not_eq_true']

/-! ## Risings, fallings and station faults (R157 to R160) -/

/-- The window a level holds after a claim's outcome. -/
def claimedWindow : InsertOutcome → Option MarkId
  | .refused => none
  | .admitted id => some id
  | .merged id => some id

/-- A claim's outcome as a report names it. -/
def claimedWord : InsertOutcome → WindowWord
  | .refused => .refused
  | .admitted id => .mark id
  | .merged id => .mark id

theorem openDeviation_eq (ev : State → State) (n : Nat) (z : Zone) (l : Level) (s : State) :
    let x := insertMark ev { kind := .window (deviationCause z.kind) (.zone n) .openEnded, w := boardAt s z.offset,
                             uncertainty := .exact 0 } s
    openDeviation ev n z l s =
      (modTrip n (fun t => { t with windows := setLevel l (claimedWindow x.2) t.windows }) x.1, claimedWord x.2) := by
  unfold openDeviation
  dsimp only
  generalize insertMark ev _ s = x
  obtain ⟨t, outcome⟩ := x
  cases outcome <;> rfl

theorem zonesAt_eq (s : State) (address : Nat) : zonesAt s address =
    (placedZones s).filter fun n => decide ((zoneOf s n).bind (·.station) = some address) := by
  refine List.filter_congr fun n _ => ?_
  cases zoneOf s n with
  | none => rfl
  | some z => exact beq_eq_decide _ _

theorem zoneFaultFalse_eq (ev : State → State) (n : Nat) (s : State) :
    let set := modTrip n (fun x => { x with stationFault := false }) s
    zoneFaultFalse ev n s = if (tripOf s n).live.cutout = true ∧ (tripOf s n).readingPart = false then
      (lowerLevel ev n .cutout set).1 else set := by
  simp only [zoneFaultFalse, Bool.and_eq_true, Bool.not_eq_true']

theorem raiseLevel_eq {ev : State → State} {n : Nat} {l : Level} {value threshold : Option Int} {z : Zone} {s : State}
    (found : zoneOf s n = some z) {a : ActionSet} {cause : WindowCause} {stop : StopCause} (actions : actionsOf z l = a)
    (deviation : deviationCause z.kind = cause) (stopping : levelStop l = stop) :
    let live := modTrip n (fun t => { t with live := setLevel l true t.live, latched := setLevel l true t.latched }) s
    let x := insertMark ev { kind := .window cause (.zone n) .openEnded, w := boardAt live z.offset, uncertainty := .exact 0 } live
    let windowed := if a.window = true then
        modTrip n (fun t => { t with windows := setLevel l (claimedWindow x.2) t.windows }) x.1 else live
    let stopped := if a.stop = true then claimStop stop windowed else windowed
    let held := if a.hold = true then stopClaim .trip stopped else stopped
    raiseLevel ev n l value threshold s = if a.report = true then tripReport n
      (.rise l value threshold a (if a.window = true then claimedWord x.2 else .none) a.stop a.hold) held else held := by
  subst actions deviation stopping
  rw [raiseLevel, found]
  dsimp only
  cases (actionsOf z l).window with
  | false => rfl
  | true =>
    simp only [openDeviation_eq, if_true]

theorem lowerLevel_of_none {ev : State → State} {n : Nat} {l : Level} {s : State}
    (none : levelOf (tripOf s n).windows l = none) : lowerLevel ev n l s =
      (modTrip n (fun t => { t with live := setLevel l false t.live, windows := setLevel l .none t.windows }) s, .none) := by
  rw [lowerLevel, none]

theorem lowerLevel_of_some {ev : State → State} {n : Nat} {l : Level} {s : State} {id : MarkId}
    (held : levelOf (tripOf s n).windows l = some id) :
    let c := closeWindow ev id (zoneOwns n) none
      (modTrip n (fun t => { t with live := setLevel l false t.live, windows := setLevel l none t.windows }) s)
    lowerLevel ev n l s = (c.1, c.2.map fun _ => id) := by
  rw [lowerLevel, held]

/-- Settles O35: the conditions level by level, and a rising and a falling with the effects their model functions name. -/
theorem tripLevelConditions : Obligations.TripLevelConditions := by
  refine ⟨fun n f s => ⟨fun x => tripOf_of_get, rfl⟩, fun α p l l' x => ⟨rfl, rfl, rfl, levelOf_setLevel p l l' x⟩,
    fun n c src => ?_, fun z v => ⟨fun c current => ?_, fun absent => ?_, decide_eq_true_iff, decide_eq_true_iff⟩,
    fun z t v => ?_, fun ev n z v s found => ?_, fun ev n l value threshold z s found => ?_,
    fun ev n l s => ⟨lowerLevel_of_none, fun id => lowerLevel_of_some⟩,
    fun ev address s => ⟨fun configuring => ?_, fun running => ?_⟩,
    fun n e z s found => ?_, fun z l => ?_⟩
  · simp only [zoneOwns, Bool.and_eq_true, Bool.or_eq_true, beq_iff_eq]
  · simp [risesAt, fallsAt, current]
  · simp [risesAt, fallsAt, absent]
  · intro part low high
    have reading : readingPartAfter z v t.readingPart = part := readingPartAfter_eq ..
    exact ⟨reading, congrArg (· || t.stationFault) reading, liveAfter_of_held z v,
      fun free => ⟨low_liveAfter_iff z v free, high_liveAfter_iff z v free⟩⟩
  · intro after fall rise read
    have falls : ∀ l, fallIf ev n after l = fall l := fun l => funext fun t => fallIf_eq ..
    have rises : ∀ l, riseIf ev n z v after l = rise l := fun l => funext fun t => riseIf_eq ..
    rw [evaluateReading, found]
    simp only [← falls, ← rises]
    rfl
  · exact raiseLevel_eq found (by cases l <;> rfl) (by cases z.kind <;> rfl) (by cases l <;> rfl)
  · rw [zoneStationRises, zoneStationFalls, configuring]
    exact ⟨if_neg Bool.false_ne_true, if_neg Bool.false_ne_true⟩
  · rw [zoneStationRises, zoneStationFalls, running, zonesAt_eq]
    refine ⟨if_pos rfl, (if_pos rfl).trans ?_⟩
    exact congrArg (fun f => List.foldl f s _) (funext fun t => funext fun n => zoneFaultFalse_eq ev n t)
  · rw [tripReport, found]
  · cases l <;> rfl

end Sys2Proof.Machine
end

section
/-! PROOFS. The Zone Regulator (R140 to R151): the values of a ramp, its steps and its early end, and the setpoints of a zone. -/

namespace Sys2Proof.Machine

/-! ## The values of a ramp (R142) -/


theorem stageValue_of_rising {r : Ramp} (rising : r.start ≤ r.target) (k : Nat) :
    stageValue r k = r.start + (r.target - r.start) * stageShares r.stages k / 1000 := by
  rw [stageValue, Int.tdiv_eq_ediv_of_nonneg (Int.mul_nonneg (Int.sub_nonneg.mpr rising) (Int.natCast_nonneg _))]

/-- A falling ramp's quotients are those of the rising one, taken off. -/
theorem stageValue_of_falling {r : Ramp} (falling : r.target ≤ r.start) (k : Nat) :
    stageValue r k = r.start - (r.start - r.target) * stageShares r.stages k / 1000 := by
  have negated : (r.target - r.start) * (stageShares r.stages k : Int) = -((r.start - r.target) * stageShares r.stages k) := by
    rw [← Int.neg_mul, Int.neg_sub]
  rw [stageValue, negated, Int.neg_tdiv,
    Int.tdiv_eq_ediv_of_nonneg (Int.mul_nonneg (Int.sub_nonneg.mpr falling) (Int.natCast_nonneg _))]
  exact Int.sub_eq_add_neg.symm

theorem stageShares_all (l : List Stage) : stageShares l l.length = (l.map (·.share)).sum := by
  rw [stageShares, List.take_length]

theorem stageLengths_all (l : List Stage) : stageLengths l l.length = (l.map (·.length)).sum := by
  rw [stageLengths, List.take_length]

theorem stageShares_le (l : List Stage) (k : Nat) : stageShares l k ≤ (l.map (·.share)).sum := by
  have split : ((l.take k ++ l.drop k).map (·.share)).sum = (l.map (·.share)).sum := by rw [List.take_append_drop]
  rw [List.map_append, List.sum_append] at split
  exact Nat.le.intro split

/-- A share of at most the whole of a distance is between nothing and the distance. -/
theorem share_bounds {d : Int} (nonneg : 0 ≤ d) {shares : Nat} (whole : shares ≤ 1000) :
    0 ≤ d * shares / 1000 ∧ d * shares / 1000 ≤ d := by
  have low : 0 ≤ d * shares := Int.mul_nonneg nonneg (Int.natCast_nonneg _)
  have high : d * shares ≤ d * 1000 := Int.mul_le_mul_of_nonneg_left (by exact_mod_cast whole) nonneg
  omega

theorem stageValue_between (r : Ramp) {k : Nat} (whole : stageShares r.stages k ≤ 1000) :
    min r.start r.target ≤ stageValue r k ∧ stageValue r k ≤ max r.start r.target := by
  rcases Int.le_total r.start r.target with rising | falling
  · rw [stageValue_of_rising rising]
    have bounds := share_bounds (Int.sub_nonneg.mpr rising) whole
    omega
  · rw [stageValue_of_falling falling]
    have bounds := share_bounds (Int.sub_nonneg.mpr falling) whole
    omega

/-- The last stage ends at the target. -/
theorem stageValue_last (r : Ramp) (all : (r.stages.map (·.share)).sum = 1000) : stageValue r r.stages.length = r.target := by
  rw [stageValue, stageShares_all, all, Nat.cast_ofNat, Int.mul_tdiv_cancel _ (by decide)]
  omega

theorem stageValue_zero (r : Ramp) : stageValue r 0 = r.start := by
  simp [stageValue, stageShares]

/-! ## Setpoints and ramps (R140 to R144) -/

theorem gradeSetpoint_eq_some_iff (s : State) (g n : Nat) (v : Int) : gradeSetpoint s g n = some v ↔
    ∃ r, s.zr.grades[g]? = some (some r) ∧ r.setpoints[n]? = some (some v) := by
  simp only [gradeSetpoint, gradeOf, Option.join_eq_some_iff, Option.bind_eq_some_iff]

theorem placeSetpoint_eq {n : Nat} {v : Int} {z : Zone} {s : State} (found : zoneOf s n = some z) : placeSetpoint n v s =
    modZone n (fun z => { z with current := some v }) (placeDirective (z.station.getD 0) (.setpoint n z.channel v) s) := by
  rw [placeSetpoint, found]

theorem stepRamp_of_none {n : Nat} {s : State} (none : (zoneOf s n).bind (·.ramp) = none) : stepRamp n s = s := by
  rw [stepRamp, none]

theorem stepRamp_of_some {n : Nat} {s : State} {r : Ramp} (ramp : (zoneOf s n).bind (·.ramp) = some r) :
    let k := stageReached r.stages (rampTravel s r)
    let stepped := if r.stageIndex < k then
        modZone n (fun z => { z with ramp := some { r with stageIndex := k } }) (placeSetpoint n (stageValue r k) s)
      else s
    stepRamp n s = if stageLengths r.stages r.stages.length ≤ rampTravel s r then
      modZone n (fun z => { z with ramp := none, run := .steady }) stepped else stepped := by
  rw [stepRamp, ramp]

theorem endRampEarly_of_ended {n : Nat} {s : State} (ended : (zoneOf (stepRamp n s) n).bind (·.ramp) = none) :
    endRampEarly n s = stepRamp n s := by
  simp only [endRampEarly, ended]

theorem endRampEarly_of_running {n : Nat} {s : State} {r : Ramp} (ramp : (zoneOf (stepRamp n s) n).bind (·.ramp) = some r) :
    endRampEarly n s =
      modZone n (fun z => { z with ramp := none, run := .steady }) (shortenRampWindow n r (stepRamp n s)) := by
  simp only [endRampEarly, ramp]

theorem startRamp_of_absent {ev : State → State} {n : Nat} {t : Int} {boundary : Option MarkId} {z : Zone} {s : State}
    (found : zoneOf s n = some z) (absent : z.current = none) : startRamp ev n t boundary s =
      modZone n (fun z => { z with run := .steady }) (placeSetpoint n t s) := by
  simp only [startRamp, found, absent]

theorem overtake_eq (ev : State → State) (n : Nat) (t : Int) (boundary : Option MarkId) (s : State) :
    overtake ev n t boundary s = if (zoneOf (endRampEarly n s) n).bind (·.current) = some t then endRampEarly n s
      else startRamp ev n t boundary (endRampEarly n s) := by
  simp only [overtake, zoneCurrent, beq_iff_eq]

/-! ## Approaches, retargets and withdrawals (R141, R146 to R148) -/

theorem zoneApproach_of_gone {ev : State → State} {n : Nat} {id : MarkId} {order : OrderId} {flag : Bool} {s : State}
    (gone : orderOf s order = none) : zoneApproach ev n id order flag s = s := by
  simp only [zoneApproach, gone]

theorem zoneApproach_of_keep {ev : State → State} {n : Nat} {id : MarkId} {order : OrderId} {flag : Bool} {s : State} {o : Order}
    {z : Zone} (ordered : orderOf s order = some o) (found : zoneOf s n = some z) (keep : gradeSetpoint s o.grade n = none) :
    let t := modZone n (recordApproach id o.grade) s
    zoneApproach ev n id order flag s =
      if z.run = .idle then modZone n (fun z => { z with run := .steady, current := none }) t else t := by
  have kept : gradeSetpoint (modZone n (recordApproach id o.grade) s) o.grade n = none := keep
  simp only [zoneApproach, ordered, found, kept, beq_iff_eq]

theorem zoneApproach_of_value {ev : State → State} {n : Nat} {id : MarkId} {order : OrderId} {flag : Bool} {s : State} {o : Order}
    {z : Zone} {v : Int} (ordered : orderOf s order = some o) (found : zoneOf s n = some z)
    (value : gradeSetpoint s o.grade n = some v) :
    let t := modZone n (recordApproach id o.grade) s
    zoneApproach ev n id order flag s =
      if zoneTarget z = some v then (if z.run = .idle then modZone n (fun z => { z with run := .steady }) t else t)
      else if z.run = .standby then modZone n (fun z => { z with returnValue := some v }) t
      else if flag = true ∨ z.run = .idle then setAtOnce n v t
      else overtake ev n v (some id) t := by
  have asked : gradeSetpoint (modZone n (recordApproach id o.grade) s) o.grade n = some v := value
  simp only [zoneApproach, ordered, found, asked, beq_iff_eq, Bool.or_eq_true]

theorem retarget_eq {ev : State → State} {n : Nat} {v : Int} {z : Zone} {s : State} (found : zoneOf s n = some z)
    (other : zoneTarget z ≠ some v) :
    (z.run = .standby → retarget ev n v s = modZone n (fun z => { z with returnValue := some v }) s) ∧
    (z.run = .idle → retarget ev n v s = s) ∧ (z.run = .steady → retarget ev n v s = startRamp ev n v none s) ∧
    (z.run = .ramping → retarget ev n v s = overtake ev n v none s) := by
  unfold retarget
  rw [found]
  simp only [beq_iff_eq, if_neg other]
  exact ⟨fun run => by rw [run], fun run => by rw [run], fun run => by rw [run], fun run => by rw [run]⟩

theorem retarget_of_target {ev : State → State} {n : Nat} {v : Int} {z : Zone} {s : State} (found : zoneOf s n = some z)
    (same : zoneTarget z = some v) : retarget ev n v s = s := by
  simp only [retarget, found, same, beq_self_eq_true, if_true]

theorem withdrawZone_of_other {ev : State → State} {id : MarkId} {n : Nat} {z : Zone} {s : State} (found : zoneOf s n = some z)
    (other : z.lastApproach ≠ some id) : withdrawZone ev id n s = s := by
  simp only [withdrawZone, found, beq_iff_eq, if_neg other]

/-- A zone turns to the value it had before an approach, or stands where it is. -/
def turnBack (ev : State → State) (n : Nat) (back : Option Int) (s : State) : State :=
  match back with
  | some v => retarget ev n v s
  | none => modZone n (fun z => { z with run := .steady }) (endRampEarly n s)

theorem withdrawZone_of_last {ev : State → State} {id : MarkId} {n : Nat} {z : Zone} {s : State}
    (found : zoneOf s n = some z) (last : z.lastApproach = some id) : withdrawZone ev id n s =
      modZone n (fun z => { z with lastApproach := none, priorGrade := none, priorTarget := none })
        (turnBack ev n (withdrawnValue s n z) (modZone n (fun z => { z with grade := z.priorGrade }) s)) := by
  rw [withdrawZone, found]
  exact if_pos (beq_iff_eq.mpr last)

/-- Settles O37: the values of a ramp by `stageValue_between`, and each operation of a zone by its cases. -/
theorem rampStaysBetweenStartAndTarget : Obligations.RampStaysBetweenStartAndTarget := by
  refine ⟨fun r k => ?_, fun r all => ⟨stageValue_last r all, stageValue_zero r, fun k =>
      stageValue_between r ((stageShares_le _ k).trans all.le)⟩, fun _ _ _ => ⟨rfl, rfl⟩, fun z => ⟨fun r run ramp => ?_,
      fun run ramp => ?_, fun run => ?_, fun run => ?_⟩, fun g n v s => gradeSetpoint_eq_some_iff s g n v,
    fun n v z s => placeSetpoint_eq,
    fun ev n id order flag s => ⟨zoneApproach_of_gone, fun o z ordered found => ⟨?_, fun v value => ?_⟩⟩,
    fun ev n t boundary z s found => ⟨startRamp_of_absent found, fun a current => ?_⟩, fun n s => ⟨fun none => ?_, fun r ramp => ?_,
      endRampEarly_of_ended, fun r ramp => ?_⟩, fun _ => rfl, fun ev n v z s found => ?_, fun ev g s => ?_,
    fun ev id n z s found => ⟨withdrawZone_of_other found, fun last => ?_⟩⟩
  · by_cases rising : r.start ≤ r.target
    · exact (stageValue_of_rising rising k).trans (if_pos rising).symm
    · exact (stageValue_of_falling (Int.le_of_lt (not_le.mp rising)) k).trans (if_neg rising).symm
  · simp only [zoneTarget, run, ramp, Option.map_some]
  · simp only [zoneTarget, run, ramp, Option.map_none]
  · simp only [zoneTarget, run]
  · rcases run with run | run <;> simp only [zoneTarget, run]
  · exact zoneApproach_of_keep ordered found
  · refine (zoneApproach_of_value ordered found value).trans ?_
    simp only [overtake_eq]
    rfl
  · simp only [startRamp, found, current]
    refine if_congr Iff.rfl ?_ rfl
    unfold rampWindow
    rw [stageLengths_all] <;> rfl
  · exact ⟨stepRamp_of_none none, (endRampEarly_of_ended (by rw [stepRamp_of_none none, none])).trans (stepRamp_of_none none)⟩
  · exact stepRamp_of_some ramp
  · refine (endRampEarly_of_running ramp).trans (congrArg _ ?_)
    unfold shortenRampWindow
    cases r.window <;> rfl
  · by_cases same : zoneTarget z = some v
    · rw [if_pos same]
      exact retarget_of_target found same
    rw [if_neg same]
    obtain ⟨standby, idle, steady, ramping⟩ := retarget_eq (ev := ev) found same
    cases run : z.run with
    | standby => exact standby run
    | idle => exact idle run
    | steady => exact steady run
    | ramping => exact (ramping run).trans (overtake_eq ..)
  · unfold applyGrade
    simp only [beq_iff_eq] <;> rfl
  · exact withdrawZone_of_last found last

end Sys2Proof.Machine
end

section
/-! PROOFS. Standby (R149, R150, R162 to R164) and LATCH_CLEAR (R161). -/

namespace Sys2Proof.Machine

/-! ## Latches (R161) -/

theorem ruleLatchClear_of_range {n : Nat} {ls : LevelSet} {s : State} (range : 16 ≤ n ∨ ls.foreign = true) :
    ruleLatchClear n ls s = (s, outOfRange) := by
  rw [ruleLatchClear]
  exact if_pos (by simpa only [Bool.or_eq_true, decide_eq_true_eq] using range)

theorem ruleLatchClear_of_unplaced {n : Nat} {ls : LevelSet} {s : State} (low : n < 16) (named : ls.foreign = false)
    (unplaced : ∀ z, zoneOf s n = some z → z.placed = false) : ruleLatchClear n ls s = (s, refusal .notFound) := by
  have inRange : ¬(decide (Config.zoneCapacity ≤ n) || ls.foreign) = true := by
    simpa [named, Config.zoneCapacity] using low
  rw [ruleLatchClear, if_neg inRange]
  refine if_pos ?_
  cases found : zoneOf s n with
  | none => rfl
  | some z => exact (Bool.not_eq_true' _).mpr (unplaced z found)

/-- A latch asked for stays set only while its flag is live. -/
theorem clearedLatch_eq (asked latched live : Bool) :
    (if asked then latched && live else latched) = (latched && (!asked || live)) := by
  cases asked
  · exact (Bool.and_true _).symm
  · rfl

theorem ruleLatchClear_of_placed {n : Nat} {ls : LevelSet} {z : Zone} {s : State} (low : n < 16) (named : ls.foreign = false)
    (found : zoneOf s n = some z) (placed : z.placed = true) :
    let x := tripOf s n
    let left : PerLevel Bool := ⟨ls.low && x.latched.low && x.live.low, ls.high && x.latched.high && x.live.high,
      ls.cutout && x.latched.cutout && x.live.cutout⟩
    ruleLatchClear n ls s = (modTrip n (fun t => { t with latched :=
        ⟨t.latched.low && (!ls.low || t.live.low), t.latched.high && (!ls.high || t.live.high),
         t.latched.cutout && (!ls.cutout || t.live.cutout)⟩ }) s,
      if left.low || left.high || left.cutout then .refused .stillActive .none (.levels left.low left.high left.cutout)
      else taken) := by
  have inRange : ¬(decide (Config.zoneCapacity ≤ n) || ls.foreign) = true := by
    simpa [named, Config.zoneCapacity] using low
  have known : ¬(!((zoneOf s n).map (·.placed)).getD false) = true := by
    simp [found, placed]
  intro x left
  rw [ruleLatchClear, if_neg inRange, if_neg known]
  simp only [clearedLatch_eq]
  cases left.low || left.high || left.cutout <;> rfl

/-- Settles O38: the three answers by the `ruleLatchClear` lemmas. -/
theorem latchClearClearsDeadLatches : Obligations.LatchClearClearsDeadLatches := by
  refine fun h src n ls s reaches => ⟨fun range => ?_, fun low named unplaced => ?_, fun z low named found placed => ?_⟩
  · exact congrArg Host.Outcome.next (receiveBody_of_rule reaches (b := .latchClear n ls) rfl (ruleLatchClear_of_range range))
  · exact congrArg Host.Outcome.next
      (receiveBody_of_rule reaches (b := .latchClear n ls) rfl (ruleLatchClear_of_unplaced low named unplaced))
  · exact congrArg Host.Outcome.next
      (receiveBody_of_rule reaches (b := .latchClear n ls) rfl (ruleLatchClear_of_placed low named found placed))

/-! ## Standby entry and exit (R149, R150) -/

/-- What becomes of a zone hangs on its record alone. -/
theorem modZone_congr {n : Nat} {f g : Zone → Zone} {s : State} (same : ∀ z, zoneOf s n = some z → f z = g z) :
    modZone n f s = modZone n g s := by
  have zones : s.zr.zones.modify n f = s.zr.zones.modify n g := List.ext_getElem? fun i => by
    simp only [List.getElem?_modify]
    split
    · next here =>
      subst here
      cases found : s.zr.zones[n]? with
      | none => rfl
      | some z => exact congrArg some (same z found)
    · rfl
  rw [modZone, zones, modZone]

theorem report_zr (b : ReportBody) (s : State) : (report b s).zr = s.zr := by
  unfold report
  split <;> rfl

theorem placeStop_zr (s : State) : (placeStop s).zr = s.zr := by
  unfold placeStop
  split
  · split <;> rfl
  · rfl

theorem claimStop_zr (c : StopCause) (s : State) : (claimStop c s).zr = s.zr := by
  unfold claimStop
  split
  · rfl
  · simp [lineReport, report_zr, placeStop_zr]

theorem placeDirective_zr (t : Nat) (d : Directive) (s : State) : (placeDirective t d s).zr = s.zr := by
  unfold placeDirective
  split
  · rfl
  · simp [directiveOverflow, stopClaim, claimStop_zr]

/-- The line's work keeps the settings of a zone. -/
theorem zoneOf_of_frame {s t : State} (frame : SameFrame s t) {n : Nat} {z : Zone} (found : zoneOf s n = some z) :
    ∃ y, zoneOf t n = some y ∧ restartedZone y = restartedZone z := by
  have settings : (zoneOf t n).map restartedZone = (zoneOf s n).map restartedZone := by
    have zones := congrArg (·[n]?) frame.zones
    simpa only [zoneOf, List.getElem?_map] using zones
  rw [found, Option.map_some] at settings
  exact Option.map_eq_some_iff.mp settings

/-- The ramp a zone runs is ended before it enters standby. -/
def rampEnded (n : Nat) (z : Zone) (s : State) : State := if z.run = .ramping then endRampEarly n s else s

/-- The value a zone in standby returns to (R149). -/
def standbyReturnValue (z : Zone) : Option Int := if z.run = .idle then none else zoneTarget z

theorem standbyEntry_of_standby {n : Nat} {z : Zone} {s : State} (found : zoneOf s n = some z) (run : z.run = .standby) :
    standbyEntry n s = s := by
  simp only [standbyEntry, found, run, beq_self_eq_true, if_true]

theorem standbyEntry_of_other {n : Nat} {z : Zone} {s : State} (found : zoneOf s n = some z) (run : z.run ≠ .standby) :
    standbyEntry n s = modZone n (fun y => { y with current := some z.standbySetpoint })
      (placeDirective (z.station.getD 0) (.setpoint n z.channel z.standbySetpoint)
        (modZone n (fun y => { y with run := .standby, returnValue := standbyReturnValue z }) (rampEnded n z s))) := by
  have frame : SameFrame s (rampEnded n z s) := by
    unfold rampEnded
    split
    · exact ((Works.refl (q := .quiet) s).endRampEarly n).frame
    · exact SameFrame.refl s
  obtain ⟨y, there, settings⟩ := zoneOf_of_frame frame found
  have entered : zoneOf (modZone n (fun y => { y with run := .standby, returnValue := standbyReturnValue z }) (rampEnded n z s)) n =
      some { y with run := .standby, returnValue := standbyReturnValue z } := by
    rw [zoneOf_modZone_same, there, Option.map_some]
  have station : y.station = z.station := congrArg (·.station) settings
  have channel : y.channel = z.channel := congrArg (·.channel) settings
  simp only [standbyEntry, found, beq_iff_eq, if_neg run]
  refine (placeSetpoint_eq entered).trans ?_
  rw [← station, ← channel]

/-- The zone's own record after the entry. -/
theorem zoneOf_standbyEntry {n : Nat} {z : Zone} {s : State} (found : zoneOf s n = some z) (run : z.run ≠ .standby) :
    ∃ y, zoneOf (standbyEntry n s) n = some y ∧ y.run = .standby ∧ y.current = some z.standbySetpoint ∧
      y.returnValue = standbyReturnValue z := by
  have frame : SameFrame s (rampEnded n z s) := by
    unfold rampEnded
    split
    · exact ((Works.refl (q := .quiet) s).endRampEarly n).frame
    · exact SameFrame.refl s
  obtain ⟨y, there, _⟩ := zoneOf_of_frame frame found
  refine ⟨{ y with run := .standby, returnValue := standbyReturnValue z, current := some z.standbySetpoint }, ?_, rfl, rfl, rfl⟩
  rw [standbyEntry_of_other found run, zoneOf_modZone_same, zoneOf, placeDirective_zr, ← zoneOf, zoneOf_modZone_same, there]
  rfl

theorem standbyExit_of_value {n : Nat} {z : Zone} {v : Int} {s : State} (found : zoneOf s n = some z) (run : z.run = .standby)
    (value : z.returnValue = some v) : standbyExit n s =
      modZone n (fun z => { z with run := .steady, returnValue := none }) (placeSetpoint n v s) := by
  simp only [standbyExit, found, run, value, beq_self_eq_true, if_true]

theorem standbyExit_of_none {n : Nat} {z : Zone} {s : State} (found : zoneOf s n = some z) (run : z.run = .standby)
    (none : z.returnValue = none) : standbyExit n s =
      modZone n (fun y => { y with run := if z.grade.isSome = true then .steady else .idle }) s := by
  simp only [standbyExit, found, run, none, beq_self_eq_true, if_true]
  refine modZone_congr fun y same => ?_
  rw [Option.some.inj (found.symm.trans same)]

theorem standbyExit_of_other {n : Nat} {z : Zone} {s : State} (found : zoneOf s n = some z) (run : z.run ≠ .standby) :
    standbyExit n s = s := by
  simp only [standbyExit, found, beq_iff_eq, if_neg run]

/-! ## The standby timer (R162 to R164) -/

theorem standbyReturn_eq (n : Nat) (s : State) : standbyReturn n s =
    if (tripOf s n).held = true then
      let back := (zoneOf s n).bind fun z => if z.run = .standby then z.returnValue else none
      tripReport n (.standbyOut back) (modTrip n (fun x => { x with held := false }) (standbyExit n s))
    else s := by
  simp only [standbyReturn, beq_iff_eq]

/-- Settles O36: the expiry as the model's own, the entry by `standbyEntry_of_other`, and the line's stops and starts. -/
theorem standbyTimerExpiry : Obligations.StandbyTimerExpiry := by
  refine ⟨fun n s => ⟨fun off => ?_, fun on => ?_⟩, fun n z s found => ⟨standbyEntry_of_standby found, fun run => ?_⟩,
    fun ev n l s => rfl, fun s => ?_, fun s => ?_,
    fun n z s found => ⟨standbyExit_of_other found, fun v => standbyExit_of_value found,
      standbyExit_of_none found⟩⟩
  · exact congrArg Host.Outcome.next (if_pos (Option.isNone_iff_eq_none.mpr off))
  · exact congrArg Host.Outcome.next (if_neg (mt Option.isNone_iff_eq_none.mp on))
  · intro back stepped ended
    have returned : standbyReturnValue z = back := by
      dsimp only [back, standbyReturnValue, zoneTarget]
      cases other : z.run with
      | standby => exact absurd other run
      | _ => rfl
    have cleared : rampEnded n z s = ended := by
      dsimp only [ended, rampEnded]
      cases z.run with
      | ramping =>
        refine (if_pos rfl).trans ?_
        cases ramp : (zoneOf (stepRamp n s) n).bind (·.ramp) with
        | none => exact endRampEarly_of_ended ramp
        | some r =>
          refine (endRampEarly_of_running ramp).trans (congrArg _ ?_)
          unfold shortenRampWindow
          cases r.window <;> rfl
      | _ => rfl
    rw [← returned, ← cleared]
    exact ⟨standbyEntry_of_other found run, zoneOf_standbyEntry found run⟩
  · refine congrArg (fun f => List.foldl f s (placedZones s)) (funext fun t => funext fun n => ?_)
    cases zoneOf t n with
    | none => rfl
    | some z => simp only [Option.map_some, Option.getD_some, beq_iff_eq]
  · unfold lineStarted
    simp only [standbyReturn_eq, List.length_map]

end Sys2Proof.Machine
end

section
/-! PROOFS. Charges and the splice's points (R114 to R123, R126): the account of a charge, the run-out examination, and when a
splice arms, accelerates and pastes. -/

namespace Sys2Proof.Machine

/-! ## Charges (R114) -/

theorem chargeRoll_of_some (travel : Nat) {r : Stand} {roll : Roll} (active : r.active = some roll) : chargeRoll travel r =
    { r with active := some { roll with remaining := roll.remaining - (travel * r.takeup + r.carry) / 1000 },
             carry := (travel * r.takeup + r.carry) % 1000 } := by
  simp only [chargeRoll, active]

theorem abortIfRunning_eq (k : Nat) (r : Stand) (s : State) : abortIfRunning k r s =
    if r.splice.state = .accelerating ∨ r.splice.state = .matched then directStand k .abort s else s := by
  simp only [abortIfRunning, Bool.or_eq_true, beq_iff_eq]

theorem webOut_eq {ev : State → State} {k : Nat} {r : Stand} {s : State} (found : standOf s k = some r) :
    let ended := if r.splice.state ≠ .idle ∧ r.splice.state ≠ .fault then
        openMismatch ev k (removeSlow k (abortIfRunning k r s)) else s
    let stopped := claimStop .webOut (modStand k (fun r => { r with active := none, carry := 0 }) ended)
    let t := spliceReport k r .webOut none none none (modSplice k faultSplice stopped)
    webOut ev k s = if r.splice.state = .fault then t else ev t := by
  simp only [webOut, found, Bool.and_eq_true, bne_iff_ne, beq_iff_eq]

theorem ranOut_iff (r : Stand) : ranOut r = true ↔ ∃ roll, r.active = some roll ∧ roll.remaining = 0 := by
  unfold ranOut
  cases r.active <;> simp

theorem rollLow_iff (r : Stand) : rollLow r = true ↔ ∃ roll, r.active = some roll ∧ roll.remaining ≤ r.runOut := by
  unfold rollLow
  cases r.active <;> simp

theorem mayPull_iff (p : Splice) : mayPull p = true ↔ p.kind = some .planned ∧ p.pulled = false ∧
    (p.state = .pending ∨ p.state = .armed ∨ p.state = .accelerating ∨ p.state = .matched) := by
  simp only [mayPull, Bool.and_eq_true, Bool.or_eq_true, beq_iff_eq, Bool.not_eq_true', or_assoc, and_assoc]

theorem examineRunOut_eq {ev : State → State} {k : Nat} {r : Stand} {s : State} (found : standOf s k = some r) :
    examineRunOut ev k s =
      if rollLow r = true then
        if r.splice.state = .idle then
          examinePending ev k (ev (modSplice k (fun p => { p with
            state := .pending, kind := some .runOut, target := some .now, boundaryW := none, paper := none, width := none,
            pulled := false }) s))
        else if mayPull r.splice = true then
          modSplice k (fun p => { p with
            pulled := true, target := some (if r.splice.state = .pending then .now else .at (boardAt s r.effOffset)) }) s
        else s
      else s := by
  simp only [examineRunOut, found, beq_iff_eq]
  rfl

/-- Settles O39: the account by `chargeRoll_of_some`, WEB_OUT and run-out by their cases. -/
theorem chargeAccountsForThePaper : Obligations.ChargeAccountsForThePaper := by
  refine ⟨fun travel r => ⟨fun empty => ?_, fun roll active => ?_⟩, fun _ _ _ _ => rfl, fun _ _ _ => ⟨rfl, rfl⟩,
    fun ev k r s found => ?_, fun ev k r s found => ?_⟩
  · simp only [chargeRoll, empty]
  · refine ⟨_, _, ?_, ?_, chargeRoll_of_some travel active⟩ <;> omega
  · intro ends braked ended stopped t
    refine ⟨?_, ?_⟩
    · refine (webOut_eq found).trans ?_
      rw [abortIfRunning_eq]
      rfl
    · simp only [examineWebOut, found, Bool.and_eq_true, ranOut_iff, bne_iff_ne]
  · intro low pulls
    refine ⟨fun high => ?_, fun run idle => ?_, fun run pulled => ?_, fun run busy kept => ?_⟩
    · exact (examineRunOut_eq found).trans (if_neg (mt (rollLow_iff r).mp high))
    · exact (examineRunOut_eq found).trans ((if_pos ((rollLow_iff r).mpr run)).trans (if_pos idle))
    · have busy : r.splice.state ≠ .idle := by
        rintro idle
        simp [pulls, idle] at pulled
      exact (examineRunOut_eq found).trans ((if_pos ((rollLow_iff r).mpr run)).trans ((if_neg busy).trans
        (if_pos ((mayPull_iff _).mpr pulled))))
    · exact (examineRunOut_eq found).trans ((if_pos ((rollLow_iff r).mpr run)).trans ((if_neg busy).trans
        (if_neg (mt (mayPull_iff _).mp kept))))

/-! ## The points of a splice (R116, R119 to R123) -/

theorem paperFits_iff {r : Stand} {roll : Roll} (ready : r.standby = .ready roll) : paperFits r = true ↔
    (r.splice.kind = some .planned → r.splice.paper = some roll.paper ∧ r.splice.width.getD 0 ≤ roll.width) := by
  unfold paperFits
  rw [ready, StandbyArm.roll]
  cases r.splice.kind with
  | none => simp
  | some kind => cases kind <;> simp

theorem mayArm_iff (r : Stand) : mayArm r = true ↔
    r.splice.state = .pending ∧ (∃ roll, r.standby = .ready roll) ∧ r.jointRef = none ∧
      (r.splice.kind = some .planned → ∃ roll, r.standby = .ready roll ∧ r.splice.paper = some roll.paper ∧
        r.splice.width.getD 0 ≤ roll.width) := by
  simp only [mayArm, Bool.and_eq_true, beq_iff_eq, Option.isNone_iff_eq_none, and_assoc]
  refine and_congr_right fun _ => ?_
  cases ready : r.standby with
  | ready roll => simp [StandbyArm.isReady, paperFits_iff ready]
  | _ => simp [StandbyArm.isReady]

theorem targetReached_iff (s : State) (r : Stand) (lead : Nat) : targetReached s r lead = true ↔
    r.splice.target = some .now ∨ ∃ w, r.splice.target = some (.at w) ∧ w + r.effOffset - lead ≤ lineCount s := by
  unfold targetReached
  cases r.splice.target with
  | none => simp
  | some t => cases t <;> simp

theorem examineArmPoint_eq {ev : State → State} {k : Nat} {r : Stand} {s : State} (found : standOf s k = some r) :
    let slowed := placeSlow k r.maxSpeed s
    examineArmPoint ev k s = if r.splice.state = .armed ∧ targetReached s r r.spliceLead = true then
        if slowed.pt.speed ≤ r.maxSpeed then
          ev (modSplice k (fun p => { p with state := .accelerating, accelTimer := some r.accelTimeout })
            (directStand k (.arm (standbyRollId r)) slowed))
        else slowed
      else s := by
  simp only [examineArmPoint, found, Bool.and_eq_true, beq_iff_eq]

theorem examinePastePoint_eq {ev : State → State} {k : Nat} {r : Stand} {s : State} (found : standOf s k = some r) :
    examinePastePoint ev k s = if r.splice.state = .matched ∧ targetReached s r 0 = true then
        ev (modSplice k (fun p => { p with state := .pasting, pasteTimer := some r.pasteTimeout })
          (directStand k (.paste (standbyRollId r)) s))
      else s := by
  simp only [examinePastePoint, found, Bool.and_eq_true, beq_iff_eq]

theorem examinePending_eq {ev : State → State} {k : Nat} {r : Stand} {s : State} (found : standOf s k = some r) :
    examinePending ev k s = if mayArm r = true then
        examineArmPoint ev k (ev (modSplice k (fun p => { p with state := .armed, target := fixTarget s r p.target }) s))
      else s := by
  simp only [examinePending, found]

theorem plannedClaim_eq {ev : State → State} {k : Nat} {r : Stand} {s : State} (found : standOf s k = some r) (w : WebPos)
    (paper width : Nat) : plannedClaim ev k w paper width s = if r.splice.state = .idle then
      examinePending ev k (ev (modSplice k (fun p => { p with
        state := .pending, kind := some .planned, target := some (.at w), boundaryW := some w, paper := some paper,
        width := some width, pulled := false }) s)) else s := by
  simp only [plannedClaim, found, beq_iff_eq]
  rfl

theorem ruleSpliceNow_of_configuring {ev : State → State} {k : Nat} {s : State} (configuring : s.me.running = false) :
    ruleSpliceNow ev k s = (s, refusal .wrongState) := by
  simp only [ruleSpliceNow, configuring, Bool.not_false, if_true]

theorem ruleSpliceNow_of_absent {ev : State → State} {k : Nat} {s : State} (running : s.me.running = true)
    (absent : standOf s k = none) : ruleSpliceNow ev k s = (s, refusal .notFound) := by
  simp only [ruleSpliceNow, running, absent, Bool.not_true, Bool.false_eq_true, if_false]

theorem ruleSpliceNow_of_busy {ev : State → State} {k : Nat} {r : Stand} {s : State} (running : s.me.running = true)
    (found : standOf s k = some r) (busy : r.splice.state ≠ .idle) : ruleSpliceNow ev k s = (s, refusal .inUse) := by
  simp only [ruleSpliceNow, running, found, Bool.not_true, Bool.false_eq_true, if_false, bne_iff_ne, if_pos busy]

theorem ruleSpliceNow_of_idle {ev : State → State} {k : Nat} {r : Stand} {s : State} (running : s.me.running = true)
    (found : standOf s k = some r) (idle : r.splice.state = .idle) : ruleSpliceNow ev k s =
      (examinePending ev k (ev (modSplice k (fun p => { p with
        state := .pending, kind := some .manual, target := some .now, boundaryW := none, paper := none, width := none,
        pulled := false }) s)), taken) := by
  simp only [ruleSpliceNow, running, found, idle, Bool.not_true, Bool.false_eq_true, if_false, bne_self_eq_false]
  rfl

/-- Settles O42: SPLICE_NOW by the `ruleSpliceNow` lemmas, and the arm and paste points by their conditions. -/
theorem spliceNowMakesPending : Obligations.SpliceNowMakesPending := by
  refine ⟨fun x => ⟨fun low high => if_pos ⟨low, high⟩, fun beyond => if_neg ?_⟩, fun _ _ => ⟨rfl, rfl⟩,
    fun _ _ _ _ => ⟨rfl, rfl, rfl, rfl⟩, fun k r d s found => ?_, fun h src k s reaches => ⟨fun configuring => ?_,
      fun running absent => ?_, fun r running found busy => ?_, fun r running found idle => ?_⟩,
    fun ev k r w paper width s found => ⟨fun busy => ?_, fun idle => ?_⟩, fun ev k r s found => ⟨fun arms => ?_, fun waits => ?_⟩,
    fun ev k r s found => ?_⟩
  · rintro ⟨low, high⟩
    omega
  · rw [directStand, found]
    rfl
  · exact congrArg Host.Outcome.next
      (receiveBody_of_rule reaches (b := .spliceNow k) rfl (ruleSpliceNow_of_configuring configuring))
  · exact congrArg Host.Outcome.next
      (receiveBody_of_rule reaches (b := .spliceNow k) rfl (ruleSpliceNow_of_absent running absent))
  · exact congrArg Host.Outcome.next
      (receiveBody_of_rule reaches (b := .spliceNow k) rfl (ruleSpliceNow_of_busy running found busy))
  · exact congrArg Host.Outcome.next
      (receiveBody_of_rule reaches (b := .spliceNow k) rfl (ruleSpliceNow_of_idle running found idle))
  · exact (plannedClaim_eq found w paper width).trans (if_neg busy)
  · exact (plannedClaim_eq found w paper width).trans (if_pos idle)
  · exact (examinePending_eq found).trans (if_pos ((mayArm_iff r).mpr arms))
  · exact (examinePending_eq found).trans (if_neg (mt (mayArm_iff r).mp waits))
  · simp only [← targetReached_iff]
    exact ⟨fun short => (examineArmPoint_eq found).trans (if_neg short),
      fun armed reached => (examineArmPoint_eq found).trans (if_pos ⟨armed, reached⟩),
      fun short => (examinePastePoint_eq found).trans (if_neg (by simpa using short)),
      fun matched reached => (examinePastePoint_eq found).trans (if_pos ⟨matched, by simpa using reached⟩)⟩
end Sys2Proof.Machine
end

section
/-! PROOFS. The ends of a splice (R124 to R135): completion, faults, aborts and cancellations, mismatch windows, and the rolls of a
stand (R112, R113). -/

namespace Sys2Proof.Machine

/-! ## Faults and timeouts (R129, R130) -/

theorem endAsFault_eq {ev : State → State} {k : Nat} {r : Stand} {s : State} (found : standOf s k = some r) (abort : Bool)
    (f : SpliceFault) :
    let ended := spliceReport k r .faulted (some f) none none
      (modSplice k faultSplice (openMismatch ev k (removeSlow k (if abort = true then directStand k .abort s else s))))
    endAsFault ev k abort f s = ev (if r.splice.state = .pasting ∧ (∃ x, r.active = some x ∧ x.remaining = 0)
      then webOut ev k ended else ended) := by
  simp only [endAsFault, found, Bool.and_eq_true, beq_iff_eq, ranOut_iff]

/-- A splice that awaits no paste ends as a fault without the WEB_OUT handling. -/
theorem endAsFault_of_unpasted {ev : State → State} {k : Nat} {r : Stand} {s : State} (found : standOf s k = some r) (abort : Bool)
    (f : SpliceFault) (unpasted : r.splice.state ≠ .pasting) : endAsFault ev k abort f s =
      ev (spliceReport k r .faulted (some f) none none
        (modSplice k faultSplice (openMismatch ev k (removeSlow k (if abort = true then directStand k .abort s else s))))) := by
  rw [endAsFault_eq found]
  exact congrArg ev (if_neg fun both => unpasted both.1)

theorem accelExpiry_of_some {ev : State → State} {k : Nat} {r : Stand} {s : State} (found : standOf s k = some r) :
    accelExpiry ev k s = if r.splice.accelTimer ≠ none then endAsFault ev k true .accelTimer s else s := by
  simp only [accelExpiry, found, Option.isSome_iff_ne_none]

theorem pasteExpiry_of_some {ev : State → State} {k : Nat} {r : Stand} {s : State} (found : standOf s k = some r) :
    pasteExpiry ev k s = if r.splice.pasteTimer = none then s
      else if r.splice.swapOwed = true then
        spliceReport k r .faulted (some .pasteTimer) none none
          (modSplice k (fun p => { p with swapOwed := false, pasteTimer := none }) s)
      else endAsFault ev k true .pasteTimer s := by
  simp only [pasteExpiry, found, Option.isNone_iff_eq_none]

theorem standFaultRises_of_some {ev : State → State} {k : Nat} {r : Stand} {s : State} (found : standOf s k = some r) :
    ((r.splice.state = .idle ∨ r.splice.state = .fault) → standFaultRises ev k s = s) ∧
    ((r.splice.state = .pending ∨ r.splice.state = .armed) → standFaultRises ev k s = endAsFault ev k false .stand s) ∧
    ((r.splice.state = .accelerating ∨ r.splice.state = .matched ∨ r.splice.state = .pasting) →
      standFaultRises ev k s = endAsFault ev k true .stand s) := by
  refine ⟨fun none => ?_, fun early => ?_, fun late => ?_⟩
  · rcases none with state | state <;> simp only [standFaultRises, found, state]
  · rcases early with state | state <;> simp only [standFaultRises, found, state]
  · rcases late with state | state | state <;> simp only [standFaultRises, found, state]

/-! ## Completion (R124, R125, R135) -/

theorem pasteDoneRises_of_some {ev : State → State} {k f : Nat} {r : Stand} {s : State} (found : standOf s k = some r) :
    pasteDoneRises ev k f s = if r.splice.state = .pasting then completeSplice ev k f r s
      else if r.splice.swapOwed = true then completeOwed ev k r s
      else spliceReport k r .unexpected none (some f) none s := by
  simp only [pasteDoneRises, found, beq_iff_eq]

theorem claimJoint_of_admitted {ev : State → State} {k : Nat} {w : WebPos} {s : State} {id : MarkId}
    (admitted : (insertMark ev { kind := .joint k, w := w, uncertainty := .exact 0 } s).2 = .admitted id) :
    let joint := insertMark ev { kind := .joint k, w := w, uncertainty := .exact 0 } s
    claimJoint ev k w s = (if (markOf joint.1 id).isSome = true then
      modStand k (fun x => { x with jointRef := some id }) joint.1 else joint.1, some id) := by
  intro joint
  unfold claimJoint
  dsimp only
  rw [admitted]
  dsimp only
  by_cases present : (markOf joint.1 id).isSome = true
  · rw [if_pos present, if_pos present]
  · rw [if_neg present, if_neg present]

theorem plannedOutcome_of_other {ev : State → State} {k : Nat} {p : Splice} {w : WebPos} {s : State}
    (other : p.kind ≠ some .planned) : plannedOutcome ev k p w s = (s, .done, .none) := by
  simp only [plannedOutcome, beq_iff_eq, if_neg other]

theorem plannedOutcome_of_onTime {ev : State → State} {k : Nat} {p : Splice} {w : WebPos} {s : State}
    (planned : p.kind = some .planned) (boundary : p.boundaryW = some w) :
    plannedOutcome ev k p w s = (s, .onTime, .none) := by
  simp only [plannedOutcome, planned, boundary, beq_self_eq_true, Option.getD_some, if_true]

theorem plannedOutcome_of_missed {ev : State → State} {k : Nat} {p : Splice} {w b : WebPos} {s : State}
    (planned : p.kind = some .planned) (boundary : p.boundaryW = some b) (missed : w ≠ b)
    (short : (w - b).natAbs ≤ 16777215) :
    let x := insertMark ev { kind := .window .gradeMismatch (.stand k) (.closed (w - b).natAbs), w := min w b,
                             uncertainty := boundaryUncertainty s b } s
    plannedOutcome ev k p w s = (x.1, if b < w then .late else .early, claimedWord x.2) := by
  have length : windowLength (w - b).natAbs = (w - b).natAbs := if_pos short
  simp only [plannedOutcome, planned, boundary, beq_self_eq_true, Option.getD_some, if_true, if_neg missed, length]
  generalize insertMark ev _ s = x
  obtain ⟨t, outcome⟩ := x
  cases outcome <;> rfl

/-- Settles O40: the expiries and the stand's fault bit by `endAsFault_eq`, and the completion step by step. -/
theorem spliceTimerExpiry : Obligations.SpliceTimerExpiry := by
  refine ⟨fun k s => ⟨fun absent => ?_, fun r found => ?_⟩, fun ev k r s found => ?_, fun ev k f r s found => ?_,
    fun ev k p w s => ⟨plannedOutcome_of_other, plannedOutcome_of_onTime, fun b => plannedOutcome_of_missed⟩⟩
  · exact ⟨congrArg Host.Outcome.next (by rw [accelExpiry, absent]), congrArg Host.Outcome.next (by rw [pasteExpiry, absent])⟩
  · refine ⟨fun off => ?_, fun on unpasted => ?_, fun off => ?_, fun on owed => ?_, fun on free t same => ?_⟩
    · exact congrArg Host.Outcome.next ((accelExpiry_of_some found).trans (if_neg (not_not.mpr off)))
    · exact congrArg Host.Outcome.next
        ((accelExpiry_of_some found).trans ((if_pos on).trans (endAsFault_of_unpasted found true _ unpasted)))
    · exact congrArg Host.Outcome.next ((pasteExpiry_of_some found).trans (if_pos off))
    · exact congrArg Host.Outcome.next ((pasteExpiry_of_some found).trans ((if_neg on).trans (if_pos owed)))
    · refine congrArg Host.Outcome.next ((pasteExpiry_of_some found).trans ((if_neg on).trans ((if_neg ?_).trans ?_)))
      · exact Bool.eq_false_iff.mp free
      · exact (endAsFault_eq found true _).trans (congrArg evaluate same)
  · obtain ⟨none, early, late⟩ := standFaultRises_of_some (ev := ev) found
    refine ⟨none, fun waits => (early waits).trans (endAsFault_of_unpasted found false _ ?_), fun runs =>
      (late (by tauto)).trans (endAsFault_of_unpasted found true _ ?_), fun pasting => ?_, ?_⟩
    · rcases waits with state | state <;> rw [state] <;> decide
    · rcases runs with state | state <;> rw [state] <;> decide
    · refine (late (.inr (.inr pasting))).trans ((endAsFault_eq found true _).trans ?_)
      simp only [pasting, true_and, if_true]
      exact apply_ite ev _ _ _
    · simp only [standFaultFalls, found, beq_iff_eq]
  · intro swapped rolls
    refine ⟨fun pasting => ?_, fun other owed => ?_, fun other free => ?_⟩
    · intro w joint id admitted referred x t
      refine (pasteDoneRises_of_some found).trans ((if_pos pasting).trans ?_)
      unfold completeSplice
      dsimp only
      rw [claimJoint_of_admitted admitted]
      rfl
    · exact (pasteDoneRises_of_some found).trans ((if_neg other).trans (if_pos owed))
    · exact (pasteDoneRises_of_some found).trans ((if_neg other).trans (if_neg (Bool.eq_false_iff.mp free)))

/-! ## Mismatch windows (R127) -/

theorem openMismatch_of_planned {ev : State → State} {k : Nat} {r : Stand} {w : WebPos} {s : State} (found : standOf s k = some r)
    (planned : r.splice.kind = some .planned) (free : r.mismatch = none) (boundary : r.splice.boundaryW = some w) :
    let x := insertMark ev { kind := .window .gradeMismatch (.stand k) .openEnded, w := w,
                             uncertainty := boundaryUncertainty s w } s
    (∀ id, x.2 = .admitted id → openMismatch ev k s = modStand k (fun r => { r with mismatch := some ⟨id, w⟩ }) x.1) ∧
    ((∀ id, x.2 ≠ .admitted id) → openMismatch ev k s = x.1) := by
  simp only [openMismatch, found, planned, free, boundary, beq_self_eq_true, Option.isNone_none, Bool.and_self, if_true,
    Option.getD_some]
  generalize insertMark ev _ s = x
  obtain ⟨t, outcome⟩ := x
  refine ⟨fun id admitted => ?_, fun other => ?_⟩
  · subst admitted
    rfl
  · cases outcome with
    | admitted id => exact absurd rfl (other id)
    | _ => rfl

theorem openMismatch_of_other {ev : State → State} {k : Nat} {r : Stand} {s : State} (found : standOf s k = some r)
    (other : r.splice.kind ≠ some .planned ∨ r.mismatch ≠ none) : openMismatch ev k s = s := by
  simp only [openMismatch, found]
  refine if_neg ?_
  simpa only [Bool.and_eq_true, beq_iff_eq, Option.isNone_iff_eq_none, not_and_or] using other

theorem closeMismatch_of_none {ev : State → State} {k : Nat} {r : Stand} {far : WebPos} {s : State} (found : standOf s k = some r)
    (none : r.mismatch = none) : closeMismatch ev k far s = s := by
  rw [closeMismatch, found, Option.bind_some, none]

theorem closeMismatch_of_some {ev : State → State} {k : Nat} {r : Stand} {far : WebPos} {s : State} {b : BoundaryRef}
    (found : standOf s k = some r) (held : r.mismatch = some b) : closeMismatch ev k far s =
      modStand k (fun r => { r with mismatch := none }) (closeWindow ev b.mark (standOwns k) (some far) s).1 := by
  rw [closeMismatch, found, Option.bind_some, held]

/-! ## Aborts and cancellations (R131, R132) -/

theorem ruleSpliceAbort_of_absent {ev : State → State} {k : Nat} {s : State} (absent : standOf s k = none) :
    ruleSpliceAbort ev k s = (s, refusal .notFound) := by
  simp only [ruleSpliceAbort, absent]

theorem ruleSpliceAbort_of_some {ev : State → State} {k : Nat} {r : Stand} {s : State} (found : standOf s k = some r) :
    (r.splice.state = .idle → ruleSpliceAbort ev k s = (s, refusal .notFound)) ∧
    (r.splice.state = .pasting → ruleSpliceAbort ev k s = (s, refusal .tooLate)) ∧
    (r.splice.state = .fault → ruleSpliceAbort ev k s = (ev (modSplice k (fun _ => idleSplice) s), taken)) ∧
    ((r.splice.state = .pending ∨ r.splice.state = .armed ∨ r.splice.state = .accelerating ∨ r.splice.state = .matched) →
      ruleSpliceAbort ev k s = (ev (spliceReport k r .aborted none none none (modSplice k (fun _ => idleSplice)
        (openMismatch ev k (removeSlow k (abortIfRunning k r s))))), taken)) := by
  refine ⟨fun state => ?_, fun state => ?_, fun state => ?_, fun going => ?_⟩
  · simp only [ruleSpliceAbort, found, state]
  · simp only [ruleSpliceAbort, found, state]
  · simp only [ruleSpliceAbort, found, state]
  · rcases going with state | state | state | state <;> simp only [ruleSpliceAbort, found, state]

theorem plannedFor_iff (r : Stand) (w : WebPos) : plannedFor r w = true ↔ r.splice.kind = some .planned ∧
    r.splice.boundaryW = some w ∧ r.splice.state ≠ .idle ∧ r.splice.state ≠ .fault := by
  simp only [plannedFor, Bool.and_eq_true, beq_iff_eq, bne_iff_ne, and_assoc]

/-- A planned splice for the withdrawn boundary goes on as RUN_OUT where it was pulled, and ends otherwise. -/
theorem cancelPlanned_eq {ev : State → State} {k : Nat} {r : Stand} {w : WebPos} {s : State} (found : standOf s k = some r) :
    let t := if plannedFor r w = true then
        if r.splice.pulled = true then
          modSplice k (fun p => { p with kind := some .runOut, boundaryW := none, paper := none, width := none }) s
        else if r.splice.state = .pasting then s
        else ev (spliceReport k r .cancelled none none none
          (modSplice k (fun _ => idleSplice) (removeSlow k (abortIfRunning k r s))))
      else s
    cancelPlanned ev w k s = if r.mismatch.map (·.w) = some w then closeMismatch ev k w t else t := by
  simp only [cancelPlanned, found, beq_iff_eq]

theorem spliceReport_eq (k : Nat) (r : Stand) (o : SpliceOutcome) (f : Option SpliceFault) (offset : Option Nat)
    (c : Option SpliceCompletion) (s : State) :
    let ended := r.splice.state = .idle ∨ r.splice.state = .fault
    spliceReport k r o f offset c s = report (.splice {
      stand := k, role := r.role, outcome := o, before := r.splice.state, fault := f, offset := offset, completion := c,
      kind := if ended then none else r.splice.kind, target := if ended then none else r.splice.target,
      boundaryW := if ended then none else r.splice.boundaryW, pulled := if ended then false else r.splice.pulled }) s := by
  unfold spliceReport inProgress
  dsimp only
  cases r.splice.state <;> rfl

/-! ## The status bits of a splice (R111, R121, R122) -/

theorem returnedTarget_eq (p : Splice) :
    returnedTarget p = if p.kind = some .planned ∧ p.pulled = false then p.target else some .now := by
  simp only [returnedTarget, Bool.and_eq_true, beq_iff_eq, Bool.not_eq_true']

/-- Settles O43: the abort by the splice's state, the mismatch window, the cancellation and the status bits by their cases. -/
theorem spliceAbortByState : Obligations.SpliceAbortByState := by
  refine ⟨fun h src k s reaches => ⟨fun absent => ?_, fun r found => ?_⟩, fun ev k r s found =>
      ⟨fun w planned free boundary => ?_, openMismatch_of_other found, fun far =>
        ⟨closeMismatch_of_none found, fun b => closeMismatch_of_some found⟩⟩, fun ev k r w s found => ?_,
    fun ev k r s found => ⟨?_, ?_, ?_, ?_⟩, spliceReport_eq, rfl⟩
  · exact congrArg Host.Outcome.next
      (receiveBody_of_rule reaches (b := .spliceAbort k) rfl (ruleSpliceAbort_of_absent absent))
  · obtain ⟨idle, pasting, fault, going⟩ := ruleSpliceAbort_of_some (ev := evaluate) found
    have answer : ∀ {t : State} {reply : Reply}, ruleSpliceAbort evaluate k s = (t, reply) →
        exec (.spliceAbort h (.fields k)) s = .next (answered h src 15 reply t) := fun rule =>
      congrArg Host.Outcome.next (receiveBody_of_rule reaches (b := .spliceAbort k) rfl rule)
    refine ⟨fun state => answer (idle state), fun state => answer (pasting state), fun state => answer (fault state),
      fun waits => answer ((going (by tauto)).trans ?_), fun runs => answer ((going (by tauto)).trans ?_)⟩
    · rw [abortIfRunning_eq, if_neg (by rcases waits with state | state <;> rw [state] <;> decide)]
      rfl
    · rw [abortIfRunning_eq, if_pos runs]
      rfl
  · intro unc x
    obtain ⟨admitted, other⟩ := openMismatch_of_planned (ev := ev) found planned free boundary
    cases outcome : x.2 with
    | admitted id => exact admitted id outcome
    | _ => exact other fun id same => by cases outcome.symm.trans same
  · intro mine closed braked
    have cancelled := cancelPlanned_eq (ev := ev) (w := w) found
    simp only [plannedFor_iff, abortIfRunning_eq] at cancelled
    refine ⟨fun others => ?_, fun mine free pasting => ?_, fun mine pulled => ?_, fun mine free going => ?_⟩
    · rw [if_neg others] at cancelled
      exact cancelled
    · rw [if_pos mine, if_neg (Bool.eq_false_iff.mp free), if_pos pasting] at cancelled
      exact cancelled
    · rw [if_pos mine, if_pos pulled] at cancelled
      exact cancelled
    · rw [if_pos mine, if_neg (Bool.eq_false_iff.mp free), if_neg going] at cancelled
      exact cancelled
  · simp only [speedMatchedRises, found, beq_iff_eq]
  · simp only [speedMatchedFalls, found, beq_iff_eq]
  · cases standby : r.standby <;> simp only [standbyReadyRises, found, standby]
  · cases standby : r.standby <;> simp only [standbyReadyFalls, found, standby, returnedTarget_eq, beq_iff_eq]

/-! ## Rolls (R112, R113) -/

/-- A check that is met gives no code, and the first that is not gives its own. -/
theorem firstFailure_eq (l : List (Bool × Detail)) :
    firstFailure l = (l.map fun x => if x.1 = true then none else some x.2).findSome? id := by
  induction l with
  | nil => rfl
  | cons x t ih =>
    obtain ⟨ok, d⟩ := x
    cases ok
    · rfl
    · exact ih

theorem inRange_iff (lo hi n : Nat) : inRange lo hi n = true ↔ lo ≤ n ∧ n ≤ hi := by
  simp only [inRange, Bool.and_eq_true, decide_eq_true_eq]

/-- A stand's arm other than the one being written holds the roll id. -/
def holdsRoll (k : Nat) (arm : Coded Arm) (id j : Nat) (r : Stand) : Prop :=
  (∃ x, r.active = some x ∧ x.rollId = id ∧ ¬(j = k ∧ arm = .named .active)) ∨
    (∃ x, r.standby.roll = some x ∧ x.rollId = id ∧ ¬(j = k ∧ arm = .named .standby))

theorem holdsRoll_iff (k : Nat) (arm : Coded Arm) (id j : Nat) (r : Stand) : holdsRoll k arm id j r ↔
    (((r.active.map (·.rollId)) == some id && !(j == k && arm == .named .active)) ||
      ((r.standby.roll.map (·.rollId)) == some id && !(j == k && arm == .named .standby))) = true := by
  simp only [holdsRoll, Bool.or_eq_true, Bool.and_eq_true, Bool.not_eq_true', ← Bool.not_eq_true, beq_iff_eq,
    Option.map_eq_some_iff, ← and_assoc, exists_and_right]

theorem rollIdHeld_iff (k : Nat) (arm : Coded Arm) (id : Nat) (s : State) : rollIdHeld s k arm id = true ↔
    ∃ j r, standOf s j = some r ∧
      ((∃ x, r.active = some x ∧ x.rollId = id ∧ ¬(j = k ∧ arm = .named .active)) ∨
        (∃ x, r.standby.roll = some x ∧ x.rollId = id ∧ ¬(j = k ∧ arm = .named .standby))) := by
  change _ ↔ ∃ j r, standOf s j = some r ∧ holdsRoll k arm id j r
  rw [rollIdHeld, List.any_eq_true]
  constructor
  · rintro ⟨j, _, held⟩
    cases found : standOf s j with
    | none => simp [found] at held
    | some r =>
      rw [found] at held
      exact ⟨j, r, found, (holdsRoll_iff ..).mpr held⟩
  · rintro ⟨j, r, found, held⟩
    obtain ⟨low, high⟩ := standOf_lt found
    refine ⟨j, List.mem_map.mpr ⟨j - 1, List.mem_range.mpr (by unfold standCount; omega), by omega⟩, ?_⟩
    rw [found]
    exact (holdsRoll_iff ..).mp held

theorem rollCheck_eq (arm : Coded Arm) (v : RollFields) : rollCheck arm v = ([
    if 1 ≤ v.paper ∧ v.paper ≤ 4095 then none else some .paperRange,
    if 600 ≤ v.width ∧ v.width ≤ 2800 then none else some .widthRange,
    if 1 ≤ v.rollId ∧ v.rollId ≤ 2 ^ 32 - 1 ∧ 1 ≤ v.length ∧ v.length ≤ 20000000 ∧ (arm = .named .active ∨ arm = .named .standby)
      then none else some .fieldRange] : List (Option Detail)).findSome? id := by
  have named : codedNamed arm = true ↔ arm = .named .active ∨ arm = .named .standby := by
    cases arm with
    | named a => cases a <;> simp [codedNamed]
    | beyond => simp [codedNamed]
  rw [rollCheck, firstFailure_eq]
  simp only [List.map_cons, List.map_nil, Bool.and_eq_true, inRange_iff, named, and_assoc]

theorem ruleRollPrepare_of_absent {ev : State → State} {k : Nat} {s : State} (arm : Coded Arm) (v : RollFields)
    (absent : standOf s k = none) : ruleRollPrepare ev k arm v s = (s, refusal .notFound) := by
  simp only [ruleRollPrepare, absent]

theorem ruleRollPrepare_of_fault {ev : State → State} {k : Nat} {r : Stand} {s : State} {arm : Coded Arm} {v : RollFields}
    {d : Detail} (found : standOf s k = some r) (fault : rollCheck arm v = some d) :
    ruleRollPrepare ev k arm v s = (s, badParameter d) := by
  simp only [ruleRollPrepare, found, fault]

theorem ruleRollPrepare_of_duplicate {ev : State → State} {k : Nat} {r : Stand} {s : State} {arm : Coded Arm} {v : RollFields}
    (found : standOf s k = some r) (sound : rollCheck arm v = none) (held : rollIdHeld s k arm v.rollId = true) :
    ruleRollPrepare ev k arm v s = (s, refusal .duplicate) := by
  simp only [ruleRollPrepare, found, sound, held, if_true]

theorem ruleRollPrepare_of_active {ev : State → State} {k : Nat} {r : Stand} {s : State} {v : RollFields}
    (found : standOf s k = some r) (sound : rollCheck (.named .active) v = none)
    (free : rollIdHeld s k (.named .active) v.rollId = false) : ruleRollPrepare ev k (.named .active) v s =
      if s.me.running = true then (s, refusal .wrongState)
      else (modStand k (fun r => { r with active := some (preparedRoll v), carry := 0 }) s, taken) := by
  simp only [ruleRollPrepare, found, sound, free, Bool.false_eq_true, if_false]

theorem isEmpty_iff (a : StandbyArm) : a.isEmpty = true ↔ a = .empty := by
  cases a <;> simp [StandbyArm.isEmpty]

theorem ruleRollPrepare_of_standby {ev : State → State} {k : Nat} {r : Stand} {s : State} {v : RollFields}
    (found : standOf s k = some r) (sound : rollCheck (.named .standby) v = none)
    (free : rollIdHeld s k (.named .standby) v.rollId = false) :
    let t := ev (modStand k (fun r => { r with standby := placedArm s k (preparedRoll v) }) s)
    ruleRollPrepare ev k (.named .standby) v s =
      if r.standby = .empty then (if t.me.running then examinePending ev k t else t, taken) else (s, refusal .inUse) := by
  simp only [ruleRollPrepare, found, sound, free, Bool.false_eq_true, if_false, isEmpty_iff]

theorem ruleRollWithdraw_of_absent {ev : State → State} {k : Nat} {s : State} (absent : standOf s k = none) :
    ruleRollWithdraw ev k s = (s, refusal .notFound) := by
  simp only [ruleRollWithdraw, absent]

theorem ruleRollWithdraw_of_empty {ev : State → State} {k : Nat} {r : Stand} {s : State} (found : standOf s k = some r)
    (empty : r.standby = .empty) : ruleRollWithdraw ev k s = (s, refusal .notFound) := by
  simp only [ruleRollWithdraw, found, isEmpty_iff, if_pos empty]

theorem ruleRollWithdraw_of_free {ev : State → State} {k : Nat} {r : Stand} {s : State} (found : standOf s k = some r)
    (holds : r.standby ≠ .empty) (swapped : r.splice.swapOwed = false)
    (free : r.splice.state = .idle ∨ r.splice.state = .pending ∨ r.splice.state = .fault) : ruleRollWithdraw ev k s =
      (ev (modStand k (fun r => { r with standby := .empty }) s), taken) := by
  rcases free with state | state | state <;>
    simp only [ruleRollWithdraw, found, isEmpty_iff, if_neg holds, swapped, state, Bool.false_eq_true, if_false]

theorem ruleRollWithdraw_of_busy {ev : State → State} {k : Nat} {r : Stand} {s : State} (found : standOf s k = some r)
    (holds : r.standby ≠ .empty) (busy : r.splice.swapOwed = true ∨ r.splice.state = .armed ∨ r.splice.state = .accelerating ∨
      r.splice.state = .matched ∨ r.splice.state = .pasting) : ruleRollWithdraw ev k s = (s, refusal .inUse) := by
  rcases busy with owed | state | state | state | state
  · simp only [ruleRollWithdraw, found, isEmpty_iff, if_neg holds, owed, if_true]
  all_goals simp only [ruleRollWithdraw, found, isEmpty_iff, if_neg holds, state, ite_self]

/-- Settles O41: ROLL_PREPARE and ROLL_WITHDRAW by their cases, the check by `rollCheck_eq`, the held ids by `rollIdHeld_iff`. -/
theorem rollsArePreparedAndWithdrawn : Obligations.RollsArePreparedAndWithdrawn := by
  refine ⟨fun h src k v s reaches => ?_, rollCheck_eq, rollIdHeld_iff⟩
  have prepare : ∀ {arm : Coded Arm} {t : State} {reply : Reply}, ruleRollPrepare evaluate k arm v s = (t, reply) →
      exec (.rollPrepare h (.fields (k, arm, v))) s = .next (answered h src 12 reply t) := fun {arm _ _} rule =>
    congrArg Host.Outcome.next (receiveBody_of_rule reaches (b := .rollPrepare k arm v) rfl rule)
  have withdraw : ∀ {t : State} {reply : Reply}, ruleRollWithdraw evaluate k s = (t, reply) →
      exec (.rollWithdraw h (.fields k)) s = .next (answered h src 13 reply t) := fun rule =>
    congrArg Host.Outcome.next (receiveBody_of_rule reaches (b := .rollWithdraw k) rfl rule)
  refine ⟨fun arm absent => ⟨prepare (ruleRollPrepare_of_absent arm v absent), withdraw (ruleRollWithdraw_of_absent absent)⟩,
    fun r found => ⟨fun arm d fault => prepare (ruleRollPrepare_of_fault found fault),
      fun arm sound held => prepare (ruleRollPrepare_of_duplicate found sound held),
      fun sound free running => prepare ((ruleRollPrepare_of_active found sound free).trans (if_pos running)),
      fun sound free configuring => prepare
        ((ruleRollPrepare_of_active found sound free).trans (if_neg (Bool.eq_false_iff.mp configuring))),
      fun sound free holds => prepare ((ruleRollPrepare_of_standby found sound free).trans (if_neg holds)),
      fun sound free empty => prepare ((ruleRollPrepare_of_standby found sound free).trans (if_pos empty)),
      fun empty => withdraw (ruleRollWithdraw_of_empty found empty),
      fun holds swapped free => withdraw (ruleRollWithdraw_of_free found holds swapped free),
      fun holds busy => withdraw (ruleRollWithdraw_of_busy found holds busy)⟩⟩

end Sys2Proof.Machine
end

section
/-! PROOFS. The order requests (R45, R46, R62 to R66): the validation of an order, and what appending, amending, cancelling and
moving one does. -/

namespace Sys2Proof.Machine

/-! ## The validation of an order (R45) -/

theorem strictlyAscending_iff (l : List Nat) : strictlyAscending l = true ↔ l.Pairwise (· < ·) := by
  rw [← List.isChain_iff_pairwise]
  induction l with
  | nil => simp [strictlyAscending]
  | cons a t ih =>
    cases t with
    | nil => simp [strictlyAscending]
    | cons b u => rw [strictlyAscending, Bool.and_eq_true, decide_eq_true_eq, ih, List.isChain_cons_cons]

theorem gradeCoversStands_iff (s : State) (g : Nat) : gradeCoversStands s g = true ↔
    ∀ i < s.sc.stands.length, (((s.zr.grades[g]?).join.bind fun r => r.papers[i]?).join).isSome = true := by
  simp only [gradeCoversStands, List.all_eq_true, List.mem_range, standCount, gradePaper, gradeOf, Nat.add_sub_cancel]

theorem orderFieldsInRange_iff (counts layout grade policy : Bool) (f : OrderFields) :
    orderFieldsInRange counts layout grade policy f = true ↔
      (layout = true → 1 ≤ f.layout.lanes.length ∧ f.layout.lanes.length ≤ 8 ∧ ∀ x ∈ f.layout.lanes, x.scores.length ≤ 4) ∧
      (counts = true → f.overrun ≤ 255) ∧ (grade = true → f.grade ≤ 31) ∧ (policy = true → codedNamed f.policy = true) := by
  simp only [orderFieldsInRange, Bool.and_eq_true, Bool.or_eq_true, Bool.not_eq_true', ← Bool.not_eq_true, inRange_iff,
    List.all_eq_true, decide_eq_true_eq, ← imp_iff_not_or, Nat.zero_le, true_and, and_assoc]

theorem orderCheck_eq {s : State} {v : OrderFields} {named : Bool} (policy : codedNamed v.policy = named) :
    let l := v.layout
    orderCheck s v = ([
      if 1 ≤ l.lanes.length ∧ l.lanes.length ≤ 8 ∧ (∀ x ∈ l.lanes, x.scores.length ≤ 4) ∧ v.overrun ≤ 255 ∧ v.grade ≤ 31 ∧
        named = true then none else some .fieldRange,
      if 600 ≤ l.boardWidth ∧ l.boardWidth ≤ 2800 then none else some .widthRange,
      if 400 ≤ v.cutLength ∧ v.cutLength ≤ 9000 then none else some .cutRange,
      if 1 ≤ v.target ∧ v.target ≤ 16777215 then none else some .targetRange,
      if 5 ≤ v.stackHeight ∧ v.stackHeight ≤ 2000 then none else some .stackRange,
      if (l.lanes.map (·.width)).sum + l.leftTrim + l.rightTrim = l.boardWidth then none else some .laneSum,
      if ∀ x ∈ l.lanes, s.pt.geometry.minLane ≤ x.width then none else some .laneNarrow,
      if s.pt.geometry.minTrim ≤ l.leftTrim ∧ s.pt.geometry.minTrim ≤ l.rightTrim then none else some .trimNarrow,
      if ∀ x ∈ l.lanes, x.scores.Pairwise (· < ·) then none else some .scoreOrder,
      if ∀ x ∈ l.lanes, ∀ p ∈ x.scores, 5 ≤ p ∧ p + 5 ≤ x.width then none else some .scoreEdge,
      if ∀ i < s.sc.stands.length, (((s.zr.grades[v.grade]?).join.bind fun g => g.papers[i]?).join).isSome = true
        then none else some .gradeMissing
    ] : List (Option Detail)).findSome? id := by
  subst policy
  simp only [orderCheck, firstFailure_eq, orderRanges, List.cons_append, List.nil_append, List.map_cons, List.map_nil,
    orderFieldsInRange_iff, gradeCoversStands_iff, strictlyAscending_iff, Bool.and_eq_true, Bool.or_eq_true, Bool.not_true,
    Bool.false_eq_true, false_or, inRange_iff, List.all_eq_true, decide_eq_true_eq, beq_iff_eq, true_imp_iff, and_assoc]

/-! ## ORDER_APPEND (R46) -/

theorem ruleOrderAppend_of_full {ev : State → State} {number : Nat} {v : OrderFields} {s : State}
    (full : 64 ≤ s.os.orders.length) : ruleOrderAppend ev number v s = (s, refusal .full) := if_pos full

theorem ruleOrderAppend_of_room {ev : State → State} {number : Nat} {v : OrderFields} {s : State}
    (room : s.os.orders.length < 64) : ruleOrderAppend ev number v s =
      if (orderOf s ⟨number, 0⟩).isSome = true then (s, refusal .duplicate)
      else ((orderCheck s v).map fun d => (s, badParameter d)).getD
        (ev { s with os := { s.os with orders := s.os.orders ++ [appendedOrder number v] } },
         .accepted (.queueIndex s.os.orders.length)) := by
  rw [ruleOrderAppend]
  refine (if_neg (not_le.mpr room)).trans (if_congr Iff.rfl rfl ?_)
  cases orderCheck s v <;> rfl

/-- Settles O24: the answers by the `ruleOrderAppend` lemmas, the validation by `orderCheck_eq`. -/
theorem orderAppendPlacesAtTheTail : Obligations.OrderAppendPlacesAtTheTail := by
  refine ⟨fun h number v p s reaches => ?_, fun v s => orderCheck_eq (by cases v.policy <;> rfl)⟩
  have answer : ∀ {t : State} {reply : Reply}, ruleOrderAppend evaluate number v s = (t, reply) →
      exec (.orderAppend h (.fields (number, v))) s = .next (answered h .supervisor 8 reply t) := fun rule =>
    congrArg Host.Outcome.next (receiveBody_of_supervisor reaches (b := .orderAppend number v) rule)
  refine ⟨fun full => answer (ruleOrderAppend_of_full full),
    fun room held => answer ((ruleOrderAppend_of_room room).trans (if_pos held)),
    fun room free d fault => answer ?_, fun room free sound policy => answer ?_⟩
  · rw [ruleOrderAppend_of_room room, free, fault]
    rfl
  · rw [ruleOrderAppend_of_room room, free, sound]
    simp only [appendedOrder, policy, policyOf]
    rfl

/-! ## ORDER_FRONT (R66) -/

/-- Settles O27: ORDER_FRONT by the order's feed state. -/
theorem orderFrontMovesToTheHead : Obligations.OrderFrontMovesToTheHead := by
  intro h id s reaches
  have answer : ∀ {t : State} {reply : Reply}, ruleOrderFront evaluate id s = (t, reply) →
      exec (.orderFront h (.fields id)) s = .next (answered h .supervisor 11 reply t) := fun rule =>
    congrArg Host.Outcome.next (receiveBody_of_supervisor reaches (b := .orderFront id) rule)
  refine ⟨fun gone => answer ?_, fun o found fed => answer ?_, fun o found queued => answer ?_⟩
  · simp only [ruleOrderFront, gone]
    rfl
  · simp only [ruleOrderFront, found, bne_iff_ne, if_pos fed]
    rfl
  · simp only [ruleOrderFront, found, queued, bne_self_eq_false, Bool.false_eq_true, if_false]
    rfl

/-! ## ORDER_AMEND (R63, R64) -/

theorem findSome?_if {α β : Type} (p : α → Bool) (f : α → Option β) (l : List α) :
    (l.findSome? fun x => if p x = true then f x else none) = (l.filter p).findSome? f := by
  induction l with
  | nil => rfl
  | cons x t ih =>
    cases named : p x <;>
      simp only [List.findSome?_cons, List.filter_cons, named, ih, Bool.false_eq_true, if_true, if_false]

theorem amendRefusal_eq (f : FeedState) (force : Bool) (mask : Byte) : amendRefusal f force mask =
    ([0, 1, 2, 3, 4, 5].filter fun g => mask.getLsbD g).findSome? (groupRefusal f force) := findSome?_if ..

theorem groupRefusal_board {g : Nat} (low : 1 ≤ g) (high : g ≤ 3) (f : FeedState) (force : Bool) :
    groupRefusal f force g = boardRefusal force f := by
  rw [groupRefusal, if_neg (by omega), if_pos high]

theorem groupRefusal_rest {g : Nat} (low : 4 ≤ g) (f : FeedState) (force : Bool) : groupRefusal f force g = none := by
  rw [groupRefusal, if_neg (by omega), if_neg (by omega)]

/-- The groups are written independently of each other. -/
theorem amendFields_eq (mask : Byte) (v f : OrderFields) : amendFields mask v f =
    { target := if mask.getLsbD 0 then v.target else f.target, overrun := if mask.getLsbD 0 then v.overrun else f.overrun,
      layout := if mask.getLsbD 1 then v.layout else f.layout, cutLength := if mask.getLsbD 2 then v.cutLength else f.cutLength,
      grade := if mask.getLsbD 3 then v.grade else f.grade,
      stackHeight := if mask.getLsbD 4 then v.stackHeight else f.stackHeight,
      policy := if mask.getLsbD 5 then v.policy else f.policy,
      holdAfter := if mask.getLsbD 5 then v.holdAfter else f.holdAfter } := by
  unfold amendFields masked
  cases mask.getLsbD 0 <;> cases mask.getLsbD 1 <;> cases mask.getLsbD 2 <;> cases mask.getLsbD 3 <;>
    cases mask.getLsbD 4 <;> cases mask.getLsbD 5 <;> rfl

theorem amendWithdraws_iff (o : Order) (mask : Byte) : amendWithdraws o mask = true ↔
    o.feed = .next ∧ (mask.getLsbD 1 = true ∨ mask.getLsbD 2 = true ∨ mask.getLsbD 3 = true) := by
  simp only [amendWithdraws, masked, Bool.and_eq_true, Bool.or_eq_true, beq_iff_eq, or_assoc]

/-- An amendment is checked group by group and then, where the board changes, in full. -/
theorem amendCheck_eq {s : State} {o : Order} {mask : Byte} {v written : OrderFields} {named : Bool}
    (policy : codedNamed v.policy = named) (whole : amendFields mask v o.fields = written) :
    let m := fun (g : Nat) => mask.getLsbD g
    let l := v.layout
    amendCheck s o mask v = ([
       if (m 1 = true → 1 ≤ l.lanes.length ∧ l.lanes.length ≤ 8 ∧ ∀ x ∈ l.lanes, x.scores.length ≤ 4) ∧
         (m 0 = true → v.overrun ≤ 255) ∧ (m 3 = true → v.grade ≤ 31) ∧ (m 5 = true → named = true) then none
         else some .fieldRange,
       if m 1 = true → 600 ≤ l.boardWidth ∧ l.boardWidth ≤ 2800 then none else some .widthRange,
       if m 2 = true → 400 ≤ v.cutLength ∧ v.cutLength ≤ 9000 then none else some .cutRange,
       if m 0 = true → 1 ≤ v.target ∧ v.target ≤ 16777215 then none else some .targetRange,
       if m 4 = true → 5 ≤ v.stackHeight ∧ v.stackHeight ≤ 2000 then none else some .stackRange,
       if o.feed = .queued ∨ (o.feed = .next ∧ (m 1 = true ∨ m 2 = true ∨ m 3 = true)) then orderCheck s written else none
     ] : List (Option Detail)).findSome? id := by
  subst policy whole
  have split : amendCheck s o mask v = ((orderRanges (masked mask 0) (masked mask 1) (masked mask 2) (masked mask 3)
      (masked mask 4) (masked mask 5) v).map (fun x => if x.1 = true then none else some x.2) ++
        [if o.feed = .queued ∨ amendWithdraws o mask = true then orderCheck s (amendFields mask v o.fields) else none]).findSome?
          id := by
    rw [List.findSome?_append, ← firstFailure_eq, amendCheck]
    simp only [Bool.or_eq_true, beq_iff_eq]
    cases firstFailure _ <;> simp
  rw [split]
  simp only [orderRanges, List.map_cons, List.map_nil, List.cons_append, List.nil_append, orderFieldsInRange_iff,
    amendWithdraws_iff, masked, Bool.or_eq_true, Bool.not_eq_true', ← Bool.not_eq_true, inRange_iff, ← imp_iff_not_or]

theorem amendedOrder_eq {comp : Nat} {mask : Byte} {v written : OrderFields} {o : Order} {p : ShortPolicy}
    (whole : amendFields mask v o.fields = written) (named : policyOf written.policy = p) :
    let lanes := written.layout.lanes.length
    amendedOrder comp mask v o = { o with
      target := written.target, overrun := written.overrun, layout := written.layout, cutLength := written.cutLength,
      grade := written.grade, stackHeight := written.stackHeight, policy := p, holdAfter := written.holdAfter,
      planned := if mask.getLsbD 0 = true ∧ o.feed = .feeding ∧ o.committedBefore = false then
          some ((written.target + lanes - 1) / lanes * written.cutLength + written.overrun * written.cutLength + comp)
        else o.planned } := by
  subst whole named
  simp only [amendedOrder, masked, Bool.and_eq_true, Bool.not_eq_true', beq_iff_eq, and_assoc]
  by_cases again : mask.getLsbD 0 = true ∧ o.feed = .feeding ∧ o.committedBefore = false
  · rw [if_pos again, if_pos again]
    rfl
  · rw [if_neg again, if_neg again]
    rfl

theorem ruleOrderAmend_of_some {ev : State → State} {force : Bool} {mask : Byte} {id : OrderId} {v : OrderFields} {s : State}
    {o : Order} (found : orderOf s id = some o) : ruleOrderAmend ev force mask id v s =
      if mask = 0 then (s, taken) else if 64 ≤ mask.toNat then (s, outOfRange)
      else ((amendRefusal o.feed force mask).map fun r => (s, refusal r)).getD
        (((amendCheck s o mask v).map fun d => (s, badParameter d)).getD
          (let t := if amendWithdraws o mask then withdrawNext o s else s
          (ev (modOrder id (amendedOrder t.os.compensation mask v) t), taken))) := by
  simp only [ruleOrderAmend, found, beq_iff_eq, maskBeyond, decide_eq_true_eq]
  refine if_congr Iff.rfl rfl (if_congr Iff.rfl rfl ?_)
  cases amendRefusal o.feed force mask with
  | some r => rfl
  | none => cases amendCheck s o mask v <;> rfl

/-- Settles O25: the answers by `ruleOrderAmend_of_some`, the refusals group by group, the checks by `amendCheck_eq` and the
record by `amendedOrder_eq`. -/
theorem orderAmendWritesTheGroups : Obligations.OrderAmendWritesTheGroups := by
  refine ⟨fun h id v s reaches => ?_, fun force => ⟨rfl, rfl, rfl, rfl, rfl, fun g low high => ?_, fun f g low _ =>
    groupRefusal_rest low f force⟩, amendRefusal_eq, fun mask v o s => ?_⟩
  · have answer : ∀ {t : State} {reply : Reply}, ruleOrderAmend evaluate h.force h.mask id v s = (t, reply) →
        exec (.orderAmend h (.fields (id, v))) s = .next (answered h .supervisor 9 reply t) := fun rule =>
      congrArg Host.Outcome.next (receiveBody_of_supervisor reaches (b := .orderAmend id v) rule)
    have small : h.mask.toNat < 64 → ¬64 ≤ h.mask.toNat := not_le.mpr
    have unmasked : h.mask = 0 → ¬64 ≤ h.mask.toNat := fun zero => by rw [zero]; decide
    refine ⟨fun gone => answer ?_, fun o found zero => answer ?_, fun o found beyond => answer ?_,
      fun o r found known refused => answer ?_, fun o d found named known open' fault => answer ?_,
      fun o found named known open' sound => answer ?_⟩
    · simp only [ruleOrderAmend, gone]
      rfl
    · exact (ruleOrderAmend_of_some found).trans (if_pos zero)
    · exact (ruleOrderAmend_of_some found).trans ((if_neg fun zero => unmasked zero beyond).trans (if_pos beyond))
    · have named : h.mask ≠ 0 := fun zero => by
        rw [zero] at refused
        simp [amendRefusal_eq] at refused
      rw [ruleOrderAmend_of_some found, if_neg named, if_neg (small known), refused]
      rfl
    · rw [ruleOrderAmend_of_some found, if_neg named, if_neg (small known), open', fault]
      rfl
    · rw [ruleOrderAmend_of_some found, if_neg named, if_neg (small known), open', sound]
      rfl
  · simp only [groupRefusal_board low high, boardRefusal, and_self, true_and, and_true]
    cases force <;> simp
  · intro m l named written
    have whole : amendFields mask v o.fields = written := amendFields_eq ..
    have coded : codedNamed v.policy = named := by
      dsimp only [named]
      cases v.policy <;> rfl
    refine ⟨amendWithdraws_iff o mask, amendCheck_eq coded whole, fun comp p policy => amendedOrder_eq whole ?_⟩
    change policyOf (if m 5 = true then v.policy else .named o.policy) = if m 5 = true then p else o.policy
    by_cases asked : m 5 = true
    · rw [if_pos asked, if_pos asked, policy asked, policyOf]
    · rw [if_neg asked, if_neg asked, policyOf]

/-! ## ORDER_CANCEL (R65) and the orphaned entries (R200) -/

theorem cancelledFeeding_eq (comp : Nat) (o : Order) : cancelledFeeding comp o = { o with
    cancelPending := true, target := o.good,
    planned := if o.committedBefore = true then o.planned else some
      ((o.good + o.layout.lanes.length - 1) / o.layout.lanes.length * o.cutLength + o.overrun * o.cutLength + comp) } := by
  unfold cancelledFeeding
  cases o.committedBefore <;> rfl

theorem namesOrder_iff (id : OrderId) (t : Trigger) : namesOrder id t = true ↔ t = .feedStart id ∨ t = .orderClosed id := by
  cases t <;> simp [namesOrder]

theorem report_me (b : ReportBody) (s : State) : (report b s).me = s.me := by
  unfold report
  split <;> rfl

theorem modify_eq_self {α : Type} {f : α → α} {l : List α} {i : Nat} (same : ∀ x, l[i]? = some x → f x = x) : l.modify i f = l := by
  refine List.ext_getElem? fun j => ?_
  rw [List.getElem?_modify]
  by_cases here : i = j
  · subst here
    cases found : l[i]? with
    | none => rfl
    | some x => simp [same x found]
  · simp [here]

theorem modify_eq_set {α : Type} {f : α → α} {l : List α} {i : Nat} {x : α} (found : l[i]? = some x) :
    l.modify i f = l.set i (f x) := by
  refine List.ext_getElem? fun j => ?_
  rw [List.getElem?_modify, List.getElem?_set]
  by_cases here : i = j
  · subst here
    obtain ⟨inside, eq⟩ := List.getElem?_eq_some_iff.mp found
    simp [inside, eq]
  · simp [here]

/-- What is left of a trigger entry once the order is gone. -/
def leftEntry (id : OrderId) (x : Option TriggerEntry) : Option TriggerEntry :=
  x.bind fun e => if namesOrder id e.trigger = true then none else some e

/-- One index of the orphaning. -/
def orphanAt (id : OrderId) (s : State) (i : Nat) : State :=
  match triggerAt s i with
  | some e => if namesOrder id e.trigger then triggerReport i e .orphaned none (setTrigger i none s) else s
  | none => s

theorem triggers_orphanAt (id : OrderId) (s : State) (i : Nat) :
    (orphanAt id s i).me.triggers = s.me.triggers.modify i (leftEntry id) := by
  have kept : (∀ x, s.me.triggers[i]? = some x → leftEntry id x = x) →
      s.me.triggers = s.me.triggers.modify i (leftEntry id) := fun same => (modify_eq_self same).symm
  cases entry : triggerAt s i with
  | none =>
    have same : orphanAt id s i = s := by rw [orphanAt, entry]
    rw [same]
    refine kept fun x found => ?_
    rw [triggerAt, found] at entry
    rw [show x = none from entry]
    rfl
  | some e =>
    have found : s.me.triggers[i]? = some (some e) := Option.join_eq_some_iff.mp entry
    by_cases named : namesOrder id e.trigger = true
    · have cleared : orphanAt id s i = triggerReport i e .orphaned none (setTrigger i none s) := by
        simp only [orphanAt, entry, if_pos named]
      rw [cleared, triggerReport, report_me, modify_eq_set found, leftEntry, Option.bind_some, if_pos named]
      rfl
    · have same : orphanAt id s i = s := by simp only [orphanAt, entry, if_neg named]
      rw [same]
      refine kept fun x there => ?_
      rw [Option.some.inj (there.symm.trans found), leftEntry, Option.bind_some, if_neg named]

theorem triggers_orphanEntries (id : OrderId) (s : State) :
    (orphanEntries id s).me.triggers = s.me.triggers.map (leftEntry id) := by
  have upTo : ∀ n j, ((List.range n).foldl (orphanAt id) s).me.triggers[j]? =
      if j < n then (s.me.triggers[j]?).map (leftEntry id) else s.me.triggers[j]? := by
    intro n j
    induction n with
    | zero => rfl
    | succ n ih =>
      rw [List.range_succ, List.foldl_append, List.foldl_cons, List.foldl_nil, triggers_orphanAt, List.getElem?_modify, ih]
      by_cases here : n = j
      · subst here
        simp
      · have past : (j < n + 1) = (j < n) := by
          rw [eq_iff_iff]
          omega
        simp [here, past]
  have all : orphanEntries id s = (List.range s.me.triggers.length).foldl (orphanAt id) s := rfl
  refine List.ext_getElem? fun j => ?_
  rw [all, upTo, List.getElem?_map]
  by_cases inside : j < s.me.triggers.length
  · exact if_pos inside
  · rw [if_neg inside, List.getElem?_eq_none (not_lt.mp inside)]
    rfl

theorem ruleOrderCancel_of_some {ev : State → State} {force : Bool} {id : OrderId} {s : State} {o : Order}
    (found : orderOf s id = some o) :
    (o.feed = .queued → ruleOrderCancel ev force id s = (ev (cancelQueued id s), taken)) ∧
    (o.feed = .next → ruleOrderCancel ev force id s =
      if force then (ev (cancelQueued id (withdrawNext o s)), taken) else (s, refusal .inUse)) ∧
    (o.feed = .feeding → ruleOrderCancel ev force id s =
      if force then (ev (modOrder id (cancelledFeeding s.os.compensation) s), taken) else (s, refusal .inUse)) ∧
    ((o.feed = .committed ∨ o.feed = .fed) → ruleOrderCancel ev force id s = (s, refusal .tooLate)) := by
  refine ⟨fun feed => ?_, fun feed => ?_, fun feed => ?_, fun gone => ?_⟩
  · simp only [ruleOrderCancel, found, feed]
  · simp only [ruleOrderCancel, found, feed]
  · simp only [ruleOrderCancel, found, feed]
  · rcases gone with feed | feed <;> simp only [ruleOrderCancel, found, feed]

theorem cancelQueued_of_some {id : OrderId} {s : State} {o : Order} (found : orderOf s id = some o) :
    cancelQueued id s = orphanEntries id (removeOrder id (report (.order o .cancelled) s)) := by
  simp only [cancelQueued, found]

/-- Settles O26: the answers by `ruleOrderCancel_of_some`, the withdrawal step by step, and the orphaned entries by
`triggers_orphanEntries`. -/
theorem orderCancelByFeedState : Obligations.OrderCancelByFeedState := by
  refine ⟨fun h id s reaches => ?_, fun id s => ?_, cancelledFeeding_eq, fun c n s current => ?_, fun id s => ?_⟩
  · have answer : ∀ {t : State} {reply : Reply}, ruleOrderCancel evaluate h.force id s = (t, reply) →
        exec (.orderCancel h (.fields id)) s = .next (answered h .supervisor 10 reply t) := fun rule =>
      congrArg Host.Outcome.next (receiveBody_of_supervisor reaches (b := .orderCancel id) rule)
    refine ⟨fun gone => answer ?_, fun o found => ?_⟩
    · simp only [ruleOrderCancel, gone]
      rfl
    obtain ⟨queued, next, feeding, late⟩ := ruleOrderCancel_of_some (ev := evaluate) (force := h.force) found
    refine ⟨fun feed => answer ((queued feed).trans ?_), fun feed force => answer ((next feed).trans (if_pos force)),
      fun feed force => answer ((feeding feed).trans (if_pos force)), fun feeds free => answer ?_, fun gone => answer (late gone)⟩
    · rw [cancelQueued_of_some found]
      rfl
    · rcases feeds with feed | feed
      · exact (next feed).trans (if_neg (Bool.eq_false_iff.mp free))
      · exact (feeding feed).trans (if_neg (Bool.eq_false_iff.mp free))
  · unfold cancelQueued orderOf
    cases s.os.orders.find? (fun o => o.id == id) <;> rfl
  · intro between unmarked spliced freed queued
    have found : boundaryBetween s c.id n.id (c.endW.getD 0) = between.map (·.id) := rfl
    have handed : ∀ id, (fun t x => withdrawThreshold id x t) = fun (t : State) (x : Threshold) => match x with
        | .release => t
        | .zone z => withdrawZone (fun s => s) id z t
        | .knifeApproach k => withdrawKnife (fun s => s) id k t
        | .knifeArrival k => withdrawKnife (fun s => s) id k t
        | .cutoff => withdrawPlan id t := fun id => by
      funext t x
      cases x <;> rfl
    have marks : withdrawBoundary c.id n.id (c.endW.getD 0) s = unmarked := by
      unfold withdrawBoundary
      rw [found]
      dsimp only [unmarked]
      cases between with
      | none => rfl
      | some m =>
        dsimp only [Option.map_some]
        rw [handed]
        rfl
    have withdrawn : withdrawNext n s = withdrawCommit c n s := by simp only [withdrawNext, current]
    rw [withdrawn, withdrawCommit]
    dsimp only
    rw [marks]
    rfl
  · intro names
    refine ⟨congrArg (fun f => List.foldl f s _) (funext fun t => funext fun i => ?_), ?_⟩
    · cases entry : triggerAt t i with
      | none => rw [show (t.me.triggers[i]?).join = none from entry]
      | some e =>
        rw [show (t.me.triggers[i]?).join = some e from entry]
        exact if_congr (namesOrder_iff id e.trigger) rfl rfl
    · rw [triggers_orphanEntries]
      refine List.map_congr_left fun x _ => ?_
      unfold leftEntry
      simp only [namesOrder_iff]
      rfl

end Sys2Proof.Machine
end

section
/-! PROOFS. The intake of requests (R181, R186 to R189): the source of an origin, the slot of a source, and the one answer. -/

namespace Sys2Proof.Machine

/-! ## The stations by role -/

theorem stationIn_eq_none_iff (s : State) (r : Role) : stationIn s r = none ↔ ∀ e, some e ∈ s.ri.stations → e.role ≠ r := by
  unfold stationIn
  rw [List.findSome?_eq_none_iff]
  constructor
  · intro none e mem role
    simpa [role] using none _ mem
  · intro absent x mem
    cases x with
    | none => rfl
    | some e => exact if_neg (by simpa using absent e mem)

theorem stationIn_eq_some {s : State} {r : Role} {e : Station} (found : stationIn s r = some e) :
    some e ∈ s.ri.stations ∧ e.role = r := by
  unfold stationIn at found
  obtain ⟨x, mem, picked⟩ := List.exists_of_findSome?_eq_some found
  cases x with
  | none => cases picked
  | some y =>
    obtain ⟨role, same⟩ := Option.ite_none_right_eq_some.mp picked
    cases same
    exact ⟨mem, by simpa using role⟩

theorem isStationOf_iff (s : State) (r : Role) (origin : Byte) :
    isStationOf s r origin = true ↔ ∃ e, stationIn s r = some e ∧ e.address = origin.toNat := by
  unfold isStationOf
  cases stationIn s r <;> simp

/-! ## The source of an origin (R186) -/

theorem requestSource_of_noSupervisor {s : State} (absent : stationIn s .supervisor = none) (origin : Byte) :
    requestSource s origin = some .supervisor := if_pos (by rw [absent]; rfl)

theorem requestSource_of_supervisor {s : State} {e : Station} {origin : Byte} (found : stationIn s .supervisor = some e)
    (same : e.address = origin.toNat) : requestSource s origin = some .supervisor :=
  (if_neg (by simp [found])).trans (if_pos ((isStationOf_iff ..).mpr ⟨e, found, same⟩))

/-- An origin that is not the supervisor's is the panel's or nobody's. -/
theorem requestSource_of_other {s : State} {e : Station} {origin : Byte} (found : stationIn s .supervisor = some e)
    (other : e.address ≠ origin.toNat) :
    requestSource s origin = if isStationOf s .panel origin then some .panel else none := by
  have notSupervisor : ¬isStationOf s .supervisor origin = true := by
    rw [isStationOf_iff]
    rintro ⟨x, same, address⟩
    cases found.symm.trans same
    exact other address
  exact (if_neg (by simp [found])).trans (if_neg notSupervisor)

/-! ## The answer (R187, R189) -/

/-- A frame of another node that is addressed to the part is handed to the Management Engine (R170). -/
theorem exec_request_of_mine {h : ReqHeader} {s : State} (active : s.passive = false) (notOwn : h.origin ≠ ownOctet s)
    (mine : h.target = ownOctet s) (f : RequestForm) :
    exec (.receiveFrame (.request h f)) s = .next (takeRequest h f s) := by
  refine congrArg Host.Outcome.next (?_ : receiveRequest h f s = takeRequest h f s)
  simp only [receiveRequest, active, beq_false_of_ne notOwn, mine, beq_self_eq_true, Bool.false_eq_true, if_false, if_true]

theorem intake_of_full {origin code tag : Byte} {act : MgmtSource → State → State × Reply} {s : State}
    (full : slotFull s (slotOf (requestSource s origin)) = true) : intake origin code tag act s = discardRequest s := if_pos full

theorem intake_of_stranger {origin code tag : Byte} {act : MgmtSource → State → State × Reply} {s : State}
    (stranger : requestSource s origin = none) (room : slotFull s .refusal = false) :
    intake origin code tag act s = placeAnswer ⟨.refusal, origin, code, tag, refusal .notPermitted⟩ s := by
  have free : ¬slotFull s (slotOf (requestSource s origin)) = true := by
    rw [stranger]
    exact Bool.eq_false_iff.mp room
  rw [intake, if_neg free, stranger]

theorem intake_of_source {origin code tag : Byte} {act : MgmtSource → State → State × Reply} {s : State} {src : MgmtSource}
    (source : requestSource s origin = some src) (room : slotFull s (slotOf (some src)) = false) :
    intake origin code tag act s = placeAnswer ⟨slotOf (some src), origin, code, tag, (act src s).2⟩ (act src s).1 := by
  have free : ¬slotFull s (slotOf (requestSource s origin)) = true := by
    rw [source]
    exact Bool.eq_false_iff.mp room
  rw [intake, if_neg free, source]

/-- A request with room for its answer adds one answer, to those that were waiting. -/
theorem takeRequest_answers {h : ReqHeader} {f : RequestForm} {s : State}
    (room : slotFull s (slotOf (requestSource s h.origin)) = false) :
    ∃ reply, (takeRequest h f s).ri.answers = s.ri.answers ++
      [⟨slotOf (requestSource s h.origin), h.origin, BitVec.ofNat 8 (formCode f), h.tag, reply⟩] := by
  cases source : requestSource s h.origin with
  | none =>
    rw [source] at room
    exact ⟨_, congrArg (·.ri.answers) (intake_of_stranger source room)⟩
  | some src =>
    rw [source] at room
    refine ⟨(takeForm h f src s).2, (congrArg (·.ri.answers) (intake_of_source source room)).trans ?_⟩
    exact congrArg (· ++ _) ((Runs.refl s).takeForm h f src).answers

/-- Settles O44: a full slot discards, and every other request adds one answer, whatever its rule does. -/
theorem requestIsAnsweredOnce : Obligations.RequestIsAnsweredOnce := by
  refine ⟨fun h f s active notOwn mine => ?_, fun origin s => ⟨?_, ?_, ?_, ?_⟩, fun r s => ⟨stationIn_eq_none_iff s r, ?_⟩⟩
  · have received := exec_request_of_mine active notOwn mine f
    refine ⟨fun full => received.trans (congrArg _ (intake_of_full full)), fun room => ?_, fun stranger room =>
      received.trans (congrArg _ (intake_of_stranger stranger room))⟩
    obtain ⟨reply, answers⟩ := takeRequest_answers (f := f) room
    exact ⟨_, reply, received, answers⟩
  · exact fun absent => requestSource_of_noSupervisor absent origin
  · exact fun e found same => requestSource_of_supervisor found same
  · exact fun e p found other panel same =>
      (requestSource_of_other found other).trans (if_pos ((isStationOf_iff ..).mpr ⟨p, panel, same⟩))
  · intro e found other noPanel
    refine (requestSource_of_other found other).trans (if_neg fun panel => ?_)
    obtain ⟨p, isPanel, same⟩ := (isStationOf_iff ..).mp panel
    exact noPanel p isPanel same
  · exact fun e found => stationIn_eq_some found
/-! ## Sizes, codes and the panel's part (R188) -/

theorem body_code_inRange (b : Body) : 1 ≤ b.code ∧ b.code ≤ 20 := by
  cases b <;> simp [Body.code]

/-- Every body under one of these codes is the panel's to make or not by its code alone (R188, check 3). -/
theorem panelForbids_of_code (b : Body) (code : b.code ∈ [5, 6, 8, 9, 10, 11]) : panelForbids b = true := by
  cases b <;> first | rfl | exact absurd code (by simp [Body.code])

theorem takeForm_of_unknown {h : ReqHeader} {src : MgmtSource} {code : Nat} {s : State} (unknown : code = 0 ∨ 20 < code) :
    takeForm h (.wrongSize code) src s = (s, .refused .unknownRequest .none .none) :=
  if_pos (by simp [inRange]; omega)

theorem takeForm_of_size {h : ReqHeader} {src : MgmtSource} {code : Nat} {s : State} (low : 1 ≤ code) (high : code ≤ 20)
    (permitted : ¬(src = .panel ∧ code ∈ [5, 6, 8, 9, 10, 11])) :
    takeForm h (.wrongSize code) src s = (s, .refused .size .none .none) :=
  (if_neg (by simp [inRange, low, high])).trans (if_neg (by simpa [panelForbidsCode] using permitted))

theorem takeForm_of_panelCode {h : ReqHeader} {code : Nat} {s : State} (forbidden : code ∈ [5, 6, 8, 9, 10, 11]) :
    takeForm h (.wrongSize code) .panel s = (s, .refused .notPermitted .none .none) := by
  have range : 1 ≤ code ∧ code ≤ 20 := by
    simp only [List.mem_cons, List.not_mem_nil, or_false] at forbidden
    omega
  exact (if_neg (by simp [inRange, range])).trans (if_pos (by simpa [panelForbidsCode] using forbidden))

/-- A request of a wrong size that reaches the Management Engine is answered as `takeForm` decides. -/
theorem exec_wrongSize_of_reaches {h : ReqHeader} {src : MgmtSource} {code : Nat} {s t : State} {reply : Reply}
    (reaches : Reaches h src s) (taken : takeForm h (.wrongSize code) src s = (t, reply)) :
    exec (.receiveFrame (.request h (.wrongSize code))) s = .next (answered h src (BitVec.ofNat 8 code) reply t) := by
  refine congrArg Host.Outcome.next ((receiveRequest_of_reaches reaches _).trans ?_)
  rw [taken]
  rfl

/-! ## Requests in octets (R170, R188) -/

theorem bodyless_eq_none {n : Nat} (identify : n ≠ 1) (start : n ≠ 5) (restart : n ≠ 6) : bodyless n = none := by
  unfold bodyless
  split <;> first | rfl | contradiction

theorem readBody_nil_of_bodyless {code mask : Byte} {b : Body} (found : bodyless code.toNat = some b) :
    readBody code mask [] = .body b := by
  simp only [readBody, found]

theorem readBody_cons_of_bodyless {code mask : Byte} {b : Body} (found : bodyless code.toNat = some b) {os : List Byte}
    (more : os ≠ []) : readBody code mask os = .wrongSize code.toNat := by
  cases os with
  | nil => exact absurd rfl more
  | cons x t => simp only [readBody, found]

theorem readBody_nil_of_fields {code mask : Byte} (absent : bodyless code.toNat = none) :
    readBody code mask [] = .wrongSize code.toNat := by
  simp only [readBody, absent]

/-- No body has a code outside Table 10-1, so under such a code no octets are one. -/
theorem readBody_of_unknown {code mask : Byte} (unknown : code.toNat = 0 ∨ 20 < code.toNat) (os : List Byte) :
    readBody code mask os = .wrongSize code.toNat := by
  have absent : bodyless code.toNat = none := bodyless_eq_none (by omega) (by omega) (by omega)
  cases os with
  | nil => exact readBody_nil_of_fields absent
  | cons x t =>
    simp only [readBody, absent]
    cases parsed : Config.requestBody code mask (x :: t) with
    | none => rfl
    | some b =>
      have range := body_code_inRange b
      exact if_neg (by omega)

theorem takePayload_of_long {target origin seq : Byte} {p : List Byte} {s : State} (long : 4 ≤ p.length) :
    takePayload target origin seq p s = intake origin (p.getD 0 0) (p.getD 1 0)
      (takeForm ⟨target, origin, seq, p.getD 1 0, p.getD 2 0, p.getD 3 0⟩
        (readBody (p.getD 0 0) (p.getD 3 0) (p.drop 4))) s :=
  if_neg (not_lt.mpr long)

theorem takePayload_of_header (target origin seq code tag flags mask : Byte) (rest : List Byte) (s : State) :
    takePayload target origin seq ([code, tag, flags, mask] ++ rest) s =
      intake origin code tag (takeForm ⟨target, origin, seq, tag, flags, mask⟩ (readBody code mask rest)) s :=
  takePayload_of_long (p := [code, tag, flags, mask] ++ rest) (by simp)

/-- Octets under a code that read as a form of that code are that request. -/
theorem takePayload_of_readBody {target origin seq code tag flags mask : Byte} {rest : List Byte} {s : State} {f : RequestForm}
    (read : readBody code mask rest = f) (same : formCode f = code.toNat) :
    takePayload target origin seq ([code, tag, flags, mask] ++ rest) s =
      takeRequest ⟨target, origin, seq, tag, flags, mask⟩ f s := by
  rw [takePayload_of_header, read, takeRequest, same]
  simp

/-- A REQUEST frame of another node in octets, addressed to the part, is handed to the Management Engine (R170). -/
theorem exec_unknownRequest_of_mine {h : FrameHeader} {p : List Byte} {s : State} (active : s.passive = false)
    (notOwn : h.origin ≠ ownOctet s) (mine : h.target = ownOctet s) :
    exec (.unknownRequest h p) s = .next (takePayload h.target h.origin h.sequence p s) := by
  refine congrArg Host.Outcome.next (?_ : receiveObserved h 6 p (.request p) s = _)
  simp only [receiveObserved, takeFrame, active, beq_false_of_ne notOwn, mine, beq_self_eq_true, Bool.false_eq_true, if_false,
    if_true]

/-- Settles O45: each clause is a form of the intake, read at the request's code, its length and its source. -/
theorem requestsRefusedAtIntake : Obligations.RequestsRefusedAtIntake := by
  refine ⟨fun h src code s reaches low high => ⟨fun permitted => ?_, ?_⟩, fun h s => ?_, fun h b s => ?_, fun h i s => rfl,
    fun h f s active notOwn mine => exec_request_of_mine active notOwn mine f, fun h b s reaches code => ?_,
    fun h src p s active notOwn mine source room => ⟨fun short => ?_, fun long unknown => ?_⟩,
    fun target origin seq code tag flags mask rest s => ?_⟩
  · exact exec_wrongSize_of_reaches reaches (takeForm_of_size low high permitted)
  · rintro rfl forbidden
    exact exec_wrongSize_of_reaches reaches (takeForm_of_panelCode forbidden)
  · simp only [List.forall_mem_cons]
    repeat' first | exact rfl | exact List.forall_mem_nil _ | apply And.intro
  · cases b with
    | mode m =>
      cases m with
      | beyond code => rfl
      | named m => cases m <;> rfl
    | _ => rfl
  · exact congrArg Host.Outcome.next (receiveBody_of_forbidden reaches (panelForbids_of_code b code))
  · refine (exec_unknownRequest_of_mine active notOwn mine).trans (congrArg _ ((if_pos short).trans ?_))
    exact intake_of_source source room
  · have refused : takeForm ⟨h.target, h.origin, h.sequence, p.getD 1 0, p.getD 2 0, p.getD 3 0⟩
        (readBody (p.getD 0 0) (p.getD 3 0) (p.drop 4)) src s = (s, .refused .unknownRequest .none .none) := by
      have outside : (p.getD 0 0).toNat = 0 ∨ 20 < (p.getD 0 0).toNat := unknown.imp_left fun zero => by rw [zero]; rfl
      rw [readBody_of_unknown outside]
      exact takeForm_of_unknown outside
    refine (exec_unknownRequest_of_mine active notOwn mine).trans (congrArg _ ((takePayload_of_long long).trans ?_))
    refine (intake_of_source source room).trans ?_
    rw [refused]
    rfl
  · refine ⟨?_, fun more code => ?_, fun empty fields => ?_⟩
    · rintro rfl
      refine ⟨?_, ?_, ?_⟩ <;> (rintro rfl; exact takePayload_of_readBody (readBody_nil_of_bodyless rfl) rfl)
    · simp only [List.mem_cons, List.not_mem_nil, or_false] at code
      obtain rfl | rfl | rfl := code <;> exact takePayload_of_readBody (readBody_cons_of_bodyless rfl more) rfl
    · subst empty
      have absent : bodyless code.toNat = none := by
        simp only [List.mem_cons, List.not_mem_nil, or_false, not_or] at fields
        obtain ⟨identify, start, restart⟩ := fields
        exact bodyless_eq_none (fun eq => identify (BitVec.eq_of_toNat_eq eq)) (fun eq => start (BitVec.eq_of_toNat_eq eq))
          fun eq => restart (BitVec.eq_of_toNat_eq eq)
      exact takePayload_of_readBody (readBody_nil_of_fields absent) rfl

end Sys2Proof.Machine
end

section
/-! PROOFS. What WRITE and LOAD of every table share (R191, R192): the group mask, the checks in order, the span of a LOAD, and a
body without fields. -/

namespace Sys2Proof.Machine

/-! ## Group masks (R191) -/

theorem groupsThen_of_beyond {mask : Byte} {n : Nat} (beyond : 2 ^ n ≤ mask.toNat) (rule : State → State × Reply) (s : State) :
    groupsThen mask n rule s = (s, .refused .parameter .fieldRange .none) := if_pos (decide_eq_true beyond)

theorem groupsThen_of_zero {mask : Byte} (zero : mask = 0) (n : Nat) (rule : State → State × Reply) (s : State) :
    groupsThen mask n rule s = (s, .accepted .none) := by
  subst zero
  exact (if_neg (by simp [maskBeyond])).trans (if_pos rfl)

theorem groupsThen_of_named {mask : Byte} {n : Nat} (named : mask ≠ 0) (within : mask.toNat < 2 ^ n)
    (rule : State → State × Reply) (s : State) : groupsThen mask n rule s = rule s :=
  (if_neg (by simpa [maskBeyond] using within)).trans (if_neg (by simpa using named))

/-- A mask that is not 0 and names none of `n` groups names one beyond them. -/
theorem beyond_of_noGroup {mask : Byte} {n : Nat} (named : mask ≠ 0) (noGroup : mask.toNat % 2 ^ n = 0) :
    2 ^ n ≤ mask.toNat := by
  by_contra within
  rw [Nat.mod_eq_of_lt (not_le.mp within)] at noGroup
  exact named (BitVec.eq_of_toNat_eq noGroup)

theorem masked_iff (mask : Byte) (i : Nat) : masked mask i = true ↔ mask.toNat / 2 ^ i % 2 = 1 := by
  rw [masked, BitVec.getLsbD, Nat.testBit_eq_decide_div_mod_eq, decide_eq_true_iff]

/-! ## Checks in order (R191, R192) -/

theorem refuseOr_of_some {r : Option Reply} {x : Reply} (refused : r = some x) (effect : State → State) (s : State) :
    refuseOr r effect s = (s, x) := by
  subst refused
  rfl

theorem refuseOr_of_none {r : Option Reply} (free : r = none) (effect : State → State) (s : State) :
    refuseOr r effect s = (effect s, .accepted .none) := by
  subst free
  rfl

theorem firstReply_cons (ok : Bool) (r : Reply) (t : List (Bool × Reply)) :
    firstReply ((ok, r) :: t) = if ok = true then firstReply t else some r := rfl

/-! ## The entries of a LOAD (R192) -/

theorem findSome?_congr_mem {α β : Type} {f g : α → Option β} {l : List α} (same : ∀ x ∈ l, f x = g x) :
    l.findSome? f = l.findSome? g := by
  induction l with
  | nil => rfl
  | cons x t ih =>
    rw [List.findSome?_cons, List.findSome?_cons, same x List.mem_cons_self, ih fun y mem => same y (List.mem_cons_of_mem x mem)]

theorem firstRefused_loadEntries {α : Type} (check : Nat → α → Option Reply) (first : Nat) (vs : List α) :
    firstRefused check (loadEntries first vs) = vs.zipIdx.findSome? fun x => check (first + x.2) x.1 := List.findSome?_map

theorem foldl_loadEntries {α β : Type} (f : β → Nat → α → β) (first : Nat) (vs : List α) (b : β) :
    (loadEntries first vs).foldl (fun b e => f b e.1 e.2) b = vs.zipIdx.foldl (fun b x => f b (first + x.2) x.1) b := List.foldl_map

/-- What needs the entries' indices alone runs over the count. -/
theorem foldl_loadEntries_index {α β : Type} (f : β → Nat → β) (first : Nat) (vs : List α) (b : β) :
    (loadEntries first vs).foldl (fun b e => f b e.1) b = (List.range vs.length).foldl (fun b i => f b (first + i)) b := by
  rw [foldl_loadEntries fun b i _ => f b i, List.range_eq_range', ← List.zipIdx_map_snd 0 vs, List.foldl_map]

theorem loadSpanFits_iff (first count size : Nat) :
    loadSpanFits first count size = true ↔ 1 ≤ count ∧ count ≤ 8 ∧ first + count ≤ size := by
  rw [loadSpanFits, Bool.and_eq_true, inRange_iff, decide_eq_true_iff, and_assoc]

theorem not_loadSpanFits {first count size : Nat} (outside : count = 0 ∨ 8 < count ∨ size < first + count) :
    (!loadSpanFits first count size) = true := by
  have unfit : ¬loadSpanFits first count size = true := by
    rw [loadSpanFits_iff]
    omega
  simpa using unfit

theorem loadSpanFits_of {first count size : Nat} (low : 1 ≤ count) (high : count ≤ 8) (fits : first + count ≤ size) :
    ¬(!loadSpanFits first count size) = true := by
  simpa using (loadSpanFits_iff first count size).mpr ⟨low, high, fits⟩

/-! ## WRITE and LOAD without fields (log entry 30) -/

theorem namesNoGroup_iff (mask : Byte) (n : Nat) : namesNoGroup mask n = true ↔ 1 < n ∧ mask.toNat % 2 ^ n = 0 := by
  rw [namesNoGroup, Bool.and_eq_true, decide_eq_true_iff, beq_iff_eq]

theorem ruleWritePlain_of_unwritable {mask : Byte} {x : Item} (unwritable : writeGroups x = 0) (s : State) :
    ruleWritePlain mask (.named x) s = (s, .refused .parameter .fieldRange .none) := if_pos unwritable

theorem ruleWritePlain_of_group {mask : Byte} {x : Item} (writable : writeGroups x ≠ 0)
    (group : ¬namesNoGroup mask (writeGroups x) = true) (s : State) :
    ruleWritePlain mask (.named x) s = (s, .refused .size .none .none) := (if_neg writable).trans (if_neg group)

theorem ruleWritePlain_of_noGroup {mask : Byte} {x : Item} (several : 1 < writeGroups x)
    (noGroup : mask.toNat % 2 ^ writeGroups x = 0) (s : State) :
    ruleWritePlain mask (.named x) s = groupsThen mask (writeGroups x) (fun s => (s, taken)) s :=
  (if_neg (by omega)).trans (if_pos ((namesNoGroup_iff ..).mpr ⟨several, noGroup⟩))

theorem ruleLoadPlain_of_unloadable {mask : Byte} {x : Item} (unloadable : loadSize x = none) (first count : Nat) (s : State) :
    ruleLoadPlain mask (.named x) first count s = (s, .refused .parameter .fieldRange .none) := by
  simp only [ruleLoadPlain, unloadable]
  rfl

theorem ruleLoadPlain_of_size {mask : Byte} {x : Item} {size : Nat} (loadable : loadSize x = some size) (first count : Nat)
    (s : State) :
    ruleLoadPlain mask (.named x) first count s =
      if count = 0 then (s, .refused .parameter .fieldRange .none)
      else if namesNoGroup mask (writeGroups x) then
        if loadSpanFits first count size then groupsThen mask (writeGroups x) (fun s => (s, taken)) s
        else (s, .refused .parameter .fieldRange .none)
      else (s, .refused .size .none .none) := by
  simp only [ruleLoadPlain, loadable]
  rfl

theorem ruleLoadPlain_of_empty (mask : Byte) (x : Item) (first : Nat) (s : State) :
    ruleLoadPlain mask (.named x) first 0 s = (s, .refused .parameter .fieldRange .none) := by
  cases loadable : loadSize x with
  | none => exact ruleLoadPlain_of_unloadable loadable first 0 s
  | some size => exact (ruleLoadPlain_of_size loadable first 0 s).trans (if_pos rfl)

theorem ruleLoadPlain_of_group {mask : Byte} {x : Item} {size first count : Nat} (loadable : loadSize x = some size)
    (positive : 1 ≤ count) (group : ¬namesNoGroup mask (writeGroups x) = true) (s : State) :
    ruleLoadPlain mask (.named x) first count s = (s, .refused .size .none .none) :=
  (ruleLoadPlain_of_size loadable first count s).trans ((if_neg (by omega)).trans (if_neg group))

theorem ruleLoadPlain_of_noGroup {mask : Byte} {x : Item} {size first count : Nat} (loadable : loadSize x = some size)
    (positive : 1 ≤ count) (several : 1 < writeGroups x) (noGroup : mask.toNat % 2 ^ writeGroups x = 0) (s : State) :
    ruleLoadPlain mask (.named x) first count s =
      if loadSpanFits first count size then groupsThen mask (writeGroups x) (fun s => (s, taken)) s
      else (s, .refused .parameter .fieldRange .none) :=
  (ruleLoadPlain_of_size loadable first count s).trans
    ((if_neg (by omega)).trans (if_pos ((namesNoGroup_iff ..).mpr ⟨several, noGroup⟩)))

theorem writeGroups_of_unlisted {x : Item}
    (unlisted : x ∉ [.lineGeometry, .rejectSpan, .standConfiguration, .stand, .grade, .zone, .profile, .station]) :
    writeGroups x = 0 := by
  cases x <;> first | rfl | exact absurd (by decide) unlisted

theorem loadSize_of_unlisted {x : Item} (unlisted : x ∉ [.rejectSpan, .grade, .zone, .profile, .station]) :
    loadSize x = none := by
  cases x <;> first | rfl | exact absurd (by decide) unlisted

/-- Settles O47: a body without fields is read by its item's group count and its mask. -/
theorem emptyMaskChangesNothing : Obligations.EmptyMaskChangesNothing := by
  intro h src i count s reaches
  have written : ∀ {item reply}, ruleWritePlain h.mask item s = (s, reply) →
      exec (.write h (.fields (item, i))) s = .next (answered h src 3 reply s) := fun {item _} rule =>
    congrArg Host.Outcome.next (receiveBody_of_rule reaches (b := .writePlain item i) rfl rule)
  have loaded : ∀ {item reply}, ruleLoadPlain h.mask item i count s = (s, reply) →
      exec (.load h (.fields (item, i, count))) s = .next (answered h src 4 reply s) := fun {item _} rule =>
    congrArg Host.Outcome.next (receiveBody_of_rule reaches (b := .loadPlain item i count) rfl rule)
  have noGroupOfZero : ∀ {n : Nat}, h.mask = 0 → h.mask.toNat % 2 ^ n = 0 := fun zero => by rw [zero]; exact Nat.zero_mod _
  have oneGroup : ∀ {n : Nat}, n = 1 → ¬namesNoGroup h.mask n = true := fun {n} one names => by
    have several := ((namesNoGroup_iff h.mask n).mp names).1
    omega
  have writable : ∀ x ∈ [(Item.lineGeometry, 4), (.stand, 2), (.zone, 4), (.station, 2)],
      writeGroups x.1 = x.2 ∧ 1 < x.2 := by decide
  have loadable : ∀ x ∈ [(Item.zone, 4, 16), (.station, 2, 32)],
      writeGroups x.1 = x.2.1 ∧ 1 < x.2.1 ∧ loadSize x.1 = some x.2.2 := by decide
  refine ⟨fun item listed zero => written ?_, fun zero low high => ⟨fun fits => loaded ?_, fun fits => loaded ?_⟩,
    fun n => ⟨written rfl, loaded rfl⟩, fun item unlisted => written ?_, fun item listed => written ?_,
    fun x listed => ⟨fun group => written ?_, fun named noGroup => written ?_⟩, fun item barred => loaded ?_,
    fun item listed low => loaded ?_, fun x listed low => ⟨fun group => loaded ?_, fun noGroup barred => loaded ?_⟩⟩
  · have several : 1 < writeGroups item := by obtain rfl | rfl | rfl | rfl := listed <;> decide
    exact (ruleWritePlain_of_noGroup several (noGroupOfZero zero) s).trans (groupsThen_of_zero zero ..)
  · have span := (loadSpanFits_iff i count 16).mpr ⟨low, high, fits⟩
    exact (ruleLoadPlain_of_noGroup (size := 16) rfl low (by decide) (noGroupOfZero zero) s).trans
      ((if_pos span).trans (groupsThen_of_zero zero ..))
  · have span := (loadSpanFits_iff i count 32).mpr ⟨low, high, fits⟩
    exact (ruleLoadPlain_of_noGroup (size := 32) rfl low (by decide) (noGroupOfZero zero) s).trans
      ((if_pos span).trans (groupsThen_of_zero zero ..))
  · exact ruleWritePlain_of_unwritable (writeGroups_of_unlisted unlisted) s
  · have one : writeGroups item = 1 := by
      revert item
      decide
    exact ruleWritePlain_of_group (by omega) (oneGroup one) s
  · obtain ⟨groups, several⟩ := writable x listed
    rw [← groups] at group several
    exact ruleWritePlain_of_group (by omega) (fun names => group ((namesNoGroup_iff ..).mp names).2) s
  · obtain ⟨groups, several⟩ := writable x listed
    rw [← groups] at noGroup several
    exact (ruleWritePlain_of_noGroup several noGroup s).trans (groupsThen_of_beyond (beyond_of_noGroup named noGroup) ..)
  · rcases barred with unlisted | rfl
    · exact ruleLoadPlain_of_unloadable (loadSize_of_unlisted unlisted) i count s
    · exact ruleLoadPlain_of_empty h.mask item i s
  · obtain ⟨one, size, loadable⟩ : writeGroups item = 1 ∧ ∃ size, loadSize item = some size := by
      simp only [List.mem_cons, List.not_mem_nil, or_false] at listed
      obtain rfl | rfl | rfl := listed <;> exact ⟨rfl, _, rfl⟩
    exact ruleLoadPlain_of_group loadable low (oneGroup one) s
  · obtain ⟨groups, _, size⟩ := loadable x listed
    rw [← groups] at group
    exact ruleLoadPlain_of_group size low (fun names => group ((namesNoGroup_iff ..).mp names).2) s
  · obtain ⟨groups, several, size⟩ := loadable x listed
    rw [← groups] at noGroup several
    refine (ruleLoadPlain_of_noGroup size low several noGroup s).trans ?_
    by_cases fits : loadSpanFits i count x.2.2 = true
    · have named : h.mask ≠ 0 := by
        have span := (loadSpanFits_iff ..).mp fits
        exact (barred.resolve_left (by omega)).resolve_left (by omega)
      exact (if_pos fits).trans (groupsThen_of_beyond (beyond_of_noGroup named noGroup) ..)
    · exact if_neg fits

end Sys2Proof.Machine
end

section
/-! PROOFS. WRITE and LOAD of grade records (R136, R137). -/

namespace Sys2Proof.Machine

/-! ## Grade records (R136, R137) -/

theorem gradePapersInRange_iff (v : Option Grade) :
    gradePapersInRange v = true ↔ ∀ g, v = some g → ∀ p, some p ∈ g.papers → 1 ≤ p ∧ p ≤ 4095 := by
  cases v with
  | none => exact ⟨fun _ g found => (nomatch found), fun _ => rfl⟩
  | some g =>
    have papers : gradePapersInRange (some g) = true ↔ ∀ p, some p ∈ g.papers → 1 ≤ p ∧ p ≤ 4095 := by
      unfold gradePapersInRange
      rw [List.all_eq_true]
      constructor
      · exact fun all p mem => (inRange_iff 1 4095 p).mp (all (some p) mem)
      · intro all x mem
        cases x with
        | none => rfl
        | some p => exact (inRange_iff 1 4095 p).mpr (all p mem)
    rw [papers]
    exact ⟨fun all x same => Option.some.inj same ▸ all, fun all => all g rfl⟩

theorem gradeInUse_iff (g : Nat) (s : State) : gradeInUse s g = true ↔
    (∃ z ∈ s.zr.zones, z.grade = some g) ∨ ∃ o ∈ s.os.orders, o.grade = g := by
  simp [gradeInUse]

theorem gradeRefusal_of_index {g : Nat} (outside : 32 ≤ g) (s : State) (force : Bool) (v : Option Grade) :
    gradeRefusal s force g v = some (.refused .parameter .fieldRange .none) :=
  (firstReply_cons ..).trans (if_neg (by simpa [Config.gradeCapacity] using outside))

/-- The checks of a record at an index of the table: its papers, and whether it is in use (R137, checks 2 and 3). -/
theorem gradeRefusal_of_inside {g : Nat} (inside : g < 32) (s : State) (force : Bool) (v : Option Grade) :
    gradeRefusal s force g v =
      if gradePapersInRange v = false then some (.refused .parameter .paperRange .none)
      else if gradeInUse s g = true ∧ ¬(force = true ∧ v ≠ none) then some (.refused .inUse .none .none) else none := by
  rw [gradeRefusal, firstReply_cons, if_pos (decide_eq_true inside), firstReply_cons, firstReply_cons]
  cases gradePapersInRange v <;> cases gradeInUse s g <;> cases force <;> cases v <;> rfl

theorem foldl_setGrade (es : List (Nat × Option Grade)) (s : State) :
    es.foldl (fun s e => setGrade e.1 e.2 s) s =
      { s with zr := { s.zr with grades := es.foldl (fun l e => l.set e.1 e.2) s.zr.grades } } :=
  List.foldl_hom (fun grades => { s with zr := { s.zr with grades := grades } }) fun _ _ => rfl

theorem ruleLoadGrade_of_unfit {first : Nat} {vs : List (Option Grade)}
    (outside : vs.length = 0 ∨ 8 < vs.length ∨ 32 < first + vs.length) (force : Bool) (s : State) :
    ruleLoadGrade force first vs s = (s, .refused .parameter .fieldRange .none) := if_pos (not_loadSpanFits outside)

theorem ruleLoadGrade_of_fit {first : Nat} {vs : List (Option Grade)} (low : 1 ≤ vs.length) (high : vs.length ≤ 8)
    (fits : first + vs.length ≤ 32) (force : Bool) (s : State) :
    ruleLoadGrade force first vs s =
      refuseOr (vs.zipIdx.findSome? fun x => gradeRefusal s force (first + x.2) x.1)
        (fun s => (List.range vs.length).foldl (fun t i => gradeEffects (first + i) t) { s with zr := { s.zr with
          grades := vs.zipIdx.foldl (fun l x => l.set (first + x.2) x.1) s.zr.grades } }) s := by
  refine (if_neg (loadSpanFits_of low high fits)).trans ?_
  rw [firstRefused_loadEntries]
  refine congrArg (fun effect => refuseOr _ effect s) (funext fun t => ?_)
  rw [foldl_loadEntries_index fun t i => gradeEffects i t, foldl_setGrade,
    foldl_loadEntries fun (l : List (Option Grade)) i x => l.set i x]

/-- Settles O51: the checks of R137 in their order for one record, and for the records of a LOAD in index order. -/
theorem gradeWrites : Obligations.GradeWrites := by
  refine ⟨fun h src g v s reaches => ?_, gradePapersInRange_iff, gradeInUse_iff⟩
  intro barred effect
  have written : ∀ {t reply}, ruleWriteGrade h.force g v s = (t, reply) →
      exec (.writeGrade h (.fields (g, v))) s = .next (answered h src 3 reply t) := fun rule =>
    congrArg Host.Outcome.next (receiveBody_of_rule reaches (b := .writeGrade g v) rfl rule)
  have loaded : ∀ {vs t reply}, ruleLoadGrade h.force g vs s = (t, reply) →
      exec (.loadGrade h (.fields (g, vs))) s = .next (answered h src 4 reply t) := fun {vs _ _} rule =>
    congrArg Host.Outcome.next (receiveBody_of_rule reaches (b := .loadGrade g vs) rfl rule)
  refine ⟨fun outside => written (refuseOr_of_some (gradeRefusal_of_index outside ..) ..), fun inside papers => ?_,
    fun inside papers use => ?_, fun inside papers free => ?_, fun vs outside => loaded (ruleLoadGrade_of_unfit outside ..),
    fun vs low high fits => ?_⟩
  · exact written (refuseOr_of_some ((gradeRefusal_of_inside inside ..).trans (if_pos papers)) ..)
  · exact written (refuseOr_of_some ((gradeRefusal_of_inside inside ..).trans
      ((if_neg (by simp [papers])).trans (if_pos use))) ..)
  · exact written (refuseOr_of_none ((gradeRefusal_of_inside inside ..).trans
      ((if_neg (by simp [papers])).trans (if_neg free))) ..)
  · intro failing
    have checks : (vs.zipIdx.findSome? fun x => gradeRefusal s h.force (g + x.2) x.1) = failing :=
      findSome?_congr_mem fun x mem => by
        have inside := List.snd_lt_of_mem_zipIdx mem
        exact gradeRefusal_of_inside (by omega) ..
    refine ⟨fun r failed => loaded ?_, fun passed => loaded ?_⟩
    · exact (ruleLoadGrade_of_fit low high fits ..).trans (refuseOr_of_some (checks.trans failed) ..)
    · exact (ruleLoadGrade_of_fit low high fits ..).trans (refuseOr_of_none (checks.trans passed) ..)

end Sys2Proof.Machine
end

section
/-! PROOFS. WRITE and LOAD of reject spans (R22) and profiles (R139), and WRITE of the stand count (R110). -/

namespace Sys2Proof.Machine

/-! ## Reject spans (R22) -/

theorem spanInRange_iff (v : Span) : spanInRange v = true ↔ v.lead ≤ 5000 ∧ v.trail ≤ 5000 := by
  simp only [spanInRange, Bool.and_eq_true, inRange_iff, Nat.zero_le, true_and]

theorem spanRefusal_of_fits {i : Nat} {v : Span} (inside : i < 9) (lead : v.lead ≤ 5000) (trail : v.trail ≤ 5000) :
    spanRefusal i v = none := if_pos (by simp [inside, (spanInRange_iff v).mpr ⟨lead, trail⟩])

theorem spanRefusal_of_outside {i : Nat} {v : Span} (outside : 9 ≤ i ∨ 5000 < v.lead ∨ 5000 < v.trail) :
    spanRefusal i v = some (.refused .parameter .fieldRange .none) := by
  refine if_neg ?_
  rw [Bool.and_eq_true, decide_eq_true_iff, spanInRange_iff]
  omega

/-- A span is refused in one way only. -/
theorem spanRefusal_cases (i : Nat) (v : Span) :
    spanRefusal i v = none ∨ spanRefusal i v = some (.refused .parameter .fieldRange .none) :=
  (Decidable.em _).imp (if_pos ·) (if_neg ·)

theorem foldl_setSpan (es : List (Nat × Span)) (s : State) :
    es.foldl (fun s e => setSpan e.1 e.2 s) s =
      { s with sm := { s.sm with spans := es.foldl (fun l e => l.set e.1 e.2) s.sm.spans } } :=
  List.foldl_hom (fun spans => { s with sm := { s.sm with spans := spans } }) fun _ _ => rfl

theorem ruleLoadSpan_of_fit {first : Nat} {vs : List Span} (low : 1 ≤ vs.length) (high : vs.length ≤ 8)
    (fits : first + vs.length ≤ 9) (s : State) :
    ruleLoadSpan first vs s =
      refuseOr (vs.zipIdx.findSome? fun x => spanRefusal (first + x.2) x.1)
        (fun s => { s with sm := { s.sm with
          spans := vs.zipIdx.foldl (fun l x => l.set (first + x.2) x.1) s.sm.spans } }) s := by
  refine (if_neg (loadSpanFits_of low high fits)).trans ?_
  rw [firstRefused_loadEntries]
  refine congrArg (fun effect => refuseOr _ effect s) (funext fun t => ?_)
  rw [foldl_setSpan, foldl_loadEntries fun (l : List Span) i x => l.set i x]

/-- Spans one of which is out of its range are refused as a whole. -/
theorem findSome?_spanRefusal {first : Nat} {vs : List Span} (bad : ∃ v ∈ vs, 5000 < v.lead ∨ 5000 < v.trail) :
    (vs.zipIdx.findSome? fun x => spanRefusal (first + x.2) x.1) = some (.refused .parameter .fieldRange .none) := by
  cases found : vs.zipIdx.findSome? fun x => spanRefusal (first + x.2) x.1 with
  | none =>
    obtain ⟨v, mem, out⟩ := bad
    obtain ⟨i, at_i⟩ := List.mem_iff_getElem?.mp mem
    have passed := List.findSome?_eq_none_iff.mp found (v, i) (List.mem_zipIdx_iff_getElem?.mpr at_i)
    cases passed.symm.trans (spanRefusal_of_outside (.inr out))
  | some r =>
    obtain ⟨x, _, refused⟩ := List.exists_of_findSome?_eq_some found
    rcases spanRefusal_cases (first + x.2) x.1 with passed | range
    · cases passed.symm.trans refused
    · exact refused.symm.trans range

theorem ruleLoadSpan_of_outside {first : Nat} {vs : List Span} (s : State)
    (outside : vs.length = 0 ∨ 8 < vs.length ∨ 9 < first + vs.length ∨ ∃ v ∈ vs, 5000 < v.lead ∨ 5000 < v.trail) :
    ruleLoadSpan first vs s = (s, .refused .parameter .fieldRange .none) := by
  by_cases fit : 1 ≤ vs.length ∧ vs.length ≤ 8 ∧ first + vs.length ≤ 9
  · obtain ⟨low, high, fits⟩ := fit
    have bad := ((outside.resolve_left (by omega)).resolve_left (by omega)).resolve_left (by omega)
    exact (ruleLoadSpan_of_fit low high fits s).trans (refuseOr_of_some (findSome?_spanRefusal bad) ..)
  · exact if_pos (not_loadSpanFits (by omega))

/-! ## Profiles (R139) -/

theorem profileCheck_eq (p : Profile) : profileCheck p = ([
    if 2 ≤ p.stages.length ∧ p.stages.length ≤ 12 then none else some .stageCount,
    if ∀ x ∈ p.stages, 100 ≤ x.length then none else some .stageShort,
    if (p.stages.map (·.share)).sum = 1000 then none else some .shareSum,
    if (p.stages.map (·.length)).sum ≤ 40000 then none else some .profileLong,
    if ∀ x ∈ p.stages, x.share ≠ 0 then none else some .shareZero] : List (Option Detail)).findSome? id := by
  rw [profileCheck, firstFailure_eq]
  simp only [List.map_cons, List.map_nil, inRange_iff, List.all_eq_true, decide_eq_true_eq, beq_iff_eq, bne_iff_ne]

theorem profileRefusal_of_inside {i : Nat} (inside : i < 8) (p : Profile) :
    profileRefusal i p = (profileCheck p).map fun d => .refused .parameter d .none := if_neg (not_le.mpr inside)

theorem profileRefusal_of_outside {i : Nat} (outside : 8 ≤ i) (p : Profile) :
    profileRefusal i p = some (.refused .parameter .fieldRange .none) := if_pos outside

theorem foldl_setProfile (es : List (Nat × Profile)) (s : State) :
    es.foldl (fun s e => setProfile e.1 e.2 s) s =
      { s with zr := { s.zr with profiles := es.foldl (fun l e => l.set e.1 e.2) s.zr.profiles } } :=
  List.foldl_hom (fun profiles => { s with zr := { s.zr with profiles := profiles } }) fun _ _ => rfl

theorem ruleLoadProfile_of_fit {first : Nat} {ps : List Profile} (low : 1 ≤ ps.length) (high : ps.length ≤ 8)
    (fits : first + ps.length ≤ 8) (s : State) :
    ruleLoadProfile first ps s =
      refuseOr ((ps.findSome? profileCheck).map fun d => .refused .parameter d .none)
        (fun s => { s with zr := { s.zr with
          profiles := ps.zipIdx.foldl (fun l x => l.set (first + x.2) x.1) s.zr.profiles } }) s := by
  have checks : firstRefused profileRefusal (loadEntries first ps) =
      (ps.findSome? profileCheck).map fun d => .refused .parameter d .none := by
    rw [firstRefused_loadEntries, List.map_findSome?]
    conv_rhs => rw [← List.zipIdx_map_fst 0 ps, List.findSome?_map]
    refine findSome?_congr_mem fun x mem => ?_
    have inside := List.snd_lt_of_mem_zipIdx mem
    exact profileRefusal_of_inside (by omega) x.1
  refine (if_neg (loadSpanFits_of low high fits)).trans ?_
  rw [checks]
  refine congrArg (fun effect => refuseOr _ effect s) (funext fun t => ?_)
  rw [foldl_setProfile, foldl_loadEntries fun (l : List Profile) i x => l.set i x]

/-! ## The stand count (R110) -/

theorem ruleWriteStandConfiguration_of_count {n : Nat} (count : n = 3 ∨ n = 5) (s : State) :
    ruleWriteStandConfiguration n s =
      if s.me.running = true then (s, .refused .wrongState .none .none)
      else ({ s with sc := { s.sc with stands := resizeStands n s.sc.stands } }, .accepted .none) := by
  rcases count with rfl | rfl <;> exact if_neg (by decide)

theorem ruleWriteStandConfiguration_of_other {n : Nat} (notThree : n ≠ 3) (notFive : n ≠ 5) (s : State) :
    ruleWriteStandConfiguration n s = (s, .refused .parameter .fieldRange .none) :=
  if_pos (by simp [notThree, notFive])

/-- Settles O49: each table's checks and its one update, for a record and for the records of a LOAD. -/
theorem spansProfilesAndStandCount : Obligations.SpansProfilesAndStandCount := by
  refine ⟨fun h src s reaches => ?_, profileCheck_eq⟩
  have spanWritten : ∀ {i v t reply}, ruleWriteSpan i v s = (t, reply) →
      exec (.writeRejectSpan h (.fields (i, v))) s = .next (answered h src 3 reply t) := fun {i v _ _} rule =>
    congrArg Host.Outcome.next (receiveBody_of_rule reaches (b := .writeRejectSpan i v) rfl rule)
  have spanLoaded : ∀ {i vs t reply}, ruleLoadSpan i vs s = (t, reply) →
      exec (.loadRejectSpan h (.fields (i, vs))) s = .next (answered h src 4 reply t) := fun {i vs _ _} rule =>
    congrArg Host.Outcome.next (receiveBody_of_rule reaches (b := .loadRejectSpan i vs) rfl rule)
  have profileWritten : ∀ {i p t reply}, ruleWriteProfile i p s = (t, reply) →
      exec (.writeProfile h (.fields (i, p))) s = .next (answered h src 3 reply t) := fun {i p _ _} rule =>
    congrArg Host.Outcome.next (receiveBody_of_rule reaches (b := .writeProfile i p) rfl rule)
  have profileLoaded : ∀ {i ps t reply}, ruleLoadProfile i ps s = (t, reply) →
      exec (.loadProfile h (.fields (i, ps))) s = .next (answered h src 4 reply t) := fun {i ps _ _} rule =>
    congrArg Host.Outcome.next (receiveBody_of_rule reaches (b := .loadProfile i ps) rfl rule)
  have countWritten : ∀ {n t reply}, ruleWriteStandConfiguration n s = (t, reply) →
      exec (.writeStandConfiguration h (.fields n)) s = .next (answered h src 3 reply t) := fun {n _ _} rule =>
    congrArg Host.Outcome.next (receiveBody_of_rule reaches (b := .writeStandConfiguration n) rfl rule)
  refine ⟨fun i v inside lead trail => ?_, fun i v outside => ?_, fun i vs low high fits inRange => ?_, fun i vs outside => ?_,
    fun i p inside passed => ?_, fun i p d inside failed => ?_, fun i p outside => ?_,
    fun i ps low high fits => ⟨fun passed => ?_, fun d failed => ?_⟩, fun i ps outside => ?_, fun n count configuring => ?_,
    fun n count running => ?_, fun n notThree notFive => ?_⟩
  · exact spanWritten (refuseOr_of_none (spanRefusal_of_fits inside lead trail) ..)
  · exact spanWritten (refuseOr_of_some (spanRefusal_of_outside outside) ..)
  · have passed : (vs.zipIdx.findSome? fun x => spanRefusal (i + x.2) x.1) = none :=
      List.findSome?_eq_none_iff.mpr fun x mem => by
        obtain ⟨lead, trail⟩ := inRange x.1 (List.mem_of_getElem? (List.mem_zipIdx_iff_getElem?.mp mem))
        have inside := List.snd_lt_of_mem_zipIdx mem
        exact spanRefusal_of_fits (by omega) lead trail
    exact spanLoaded ((ruleLoadSpan_of_fit low high fits s).trans (refuseOr_of_none passed ..))
  · exact spanLoaded (ruleLoadSpan_of_outside s outside)
  · exact profileWritten (refuseOr_of_none ((profileRefusal_of_inside inside p).trans (by rw [passed]; rfl)) ..)
  · exact profileWritten (refuseOr_of_some ((profileRefusal_of_inside inside p).trans (by rw [failed]; rfl)) ..)
  · exact profileWritten (refuseOr_of_some (profileRefusal_of_outside outside p) ..)
  · exact profileLoaded ((ruleLoadProfile_of_fit low high fits s).trans (refuseOr_of_none (by rw [passed]; rfl) ..))
  · exact profileLoaded ((ruleLoadProfile_of_fit low high fits s).trans (refuseOr_of_some (by rw [failed]; rfl) ..))
  · exact profileLoaded (if_pos (not_loadSpanFits outside))
  · exact countWritten ((ruleWriteStandConfiguration_of_count count s).trans (if_neg (by simp [configuring])))
  · exact countWritten ((ruleWriteStandConfiguration_of_count count s).trans (if_pos running))
  · exact countWritten (ruleWriteStandConfiguration_of_other notThree notFive s)

end Sys2Proof.Machine
end

section
/-! PROOFS. What the line's requests and the observed frames leave as it was (R9, R88, R155, R176, Table 10-1). -/

namespace Sys2Proof.Machine

/-! ## The line's requests -/

theorem works_ruleClearStop (c : Coded StopCause) (s : State) : Works (.loud true) s (ruleClearStop c s).1 := by
  cases c with
  | beyond => exact Works.refl s
  | named x =>
    unfold ruleClearStop
    dsimp only
    split
    · exact Works.refl s
    · split
      · exact Works.refl s
      · exact (Works.refl s).removeStop x

theorem works_ruleTriggerSet (src : MgmtSource) (form : TriggerForm) (tag : Nat) (heldTag : Byte) (held : HeldBody) (s : State) :
    Works (.loud true) s (ruleTriggerSet src form tag heldTag held s).1 := by
  unfold ruleTriggerSet
  repeat' first
    | exact Works.refl s
    | exact (Works.refl s).setTrigger _ _
    | split

theorem works_ruleTriggerClear (src : MgmtSource) (name : ClearName) (s : State) :
    Works (.loud true) s (ruleTriggerClear src name s).1 := by
  unfold ruleTriggerClear
  repeat' first
    | exact Works.refl s
    | exact (Works.refl s).setTrigger _ _
    | exact (Works.refl s).removeTriggers _
    | split
    | dsimp only

/-- The requests that write no table, from MODE to TRIGGER_CLEAR (Table 10-1), are the line's work. -/
theorem works_applyBody {h : ReqHeader} {src : MgmtSource} {b : Body} {s : State} (line : 7 ≤ b.code) :
    Works (.loud true) s (applyBody h src b s).1 := by
  have evaluated := evaluate_works (u := true) s
  cases b with
  | mode m => exact (Works.refl s).ruleMode evaluated m
  | orderAppend n v => exact (Works.refl s).ruleOrderAppend evaluated n v
  | orderAmend o v => exact (Works.refl s).ruleOrderAmend evaluated _ _ o v
  | orderCancel o => exact (Works.refl s).ruleOrderCancel evaluated _ o
  | orderFront o => exact (Works.refl s).ruleOrderFront evaluated o
  | rollPrepare k a r => exact (Works.refl s).ruleRollPrepare evaluated k a r
  | rollWithdraw k => exact (Works.refl s).ruleRollWithdraw evaluated k
  | spliceNow k => exact (Works.refl s).ruleSpliceNow evaluated k
  | spliceAbort k => exact (Works.refl s).ruleSpliceAbort evaluated k
  | latchClear n ls => exact (Works.refl s).ruleLatchClear n ls
  | clearStop c => exact works_ruleClearStop c s
  | mark w l => exact (Works.refl s).ruleMark evaluated w l
  | triggerSet t tag ht held => exact works_ruleTriggerSet src t tag ht held s
  | triggerClear n => exact works_ruleTriggerClear src n s
  | _ => simp [Body.code] at line

/-- Settles O56: a request the panel may not make changes nothing, and every other is its rule's work. -/
theorem lineRequestsKeepTheFrame : Obligations.LineRequestsKeepTheFrame := by
  intro h src b s reaches line
  refine ⟨_, _, congrArg Host.Outcome.next (receiveRequest_of_reaches reaches (.body b)), ?_⟩
  unfold takeForm
  dsimp only
  split
  · exact SameFrame.refl s
  · exact (works_applyBody (by omega)).frame

/-! ## Observed frames -/

/-- What no observed frame changes: the part's own address, its answers and its transmit pin, the counts of faulted frames and of
discarded requests, the geometry, the tables, the settings of stands and zones, and the part state. -/
structure SameTables (s t : State) : Prop where
  ownAddress : t.ri.ownAddress = s.ri.ownAddress
  answers : t.ri.answers = s.ri.answers
  frameFaults : t.ri.frameFaults = s.ri.frameFaults
  txPin : t.ri.txPin = s.ri.txPin
  geometry : t.pt.geometry = s.pt.geometry
  spans : t.sm.spans = s.sm.spans
  grades : t.zr.grades = s.zr.grades
  profiles : t.zr.profiles = s.zr.profiles
  stands : t.sc.stands.map standSettings = s.sc.stands.map standSettings
  zones : t.zr.zones.map restartedZone = s.zr.zones.map restartedZone
  running : t.me.running = s.me.running
  discards : t.me.discards = s.me.discards

theorem SameTables.refl (s : State) : SameTables s s := by constructor <;> rfl

theorem SameTables.trans {a b c : State} (h : SameTables a b) (k : SameTables b c) : SameTables a c where
  ownAddress := k.ownAddress.trans h.ownAddress
  answers := k.answers.trans h.answers
  frameFaults := k.frameFaults.trans h.frameFaults
  txPin := k.txPin.trans h.txPin
  geometry := k.geometry.trans h.geometry
  spans := k.spans.trans h.spans
  grades := k.grades.trans h.grades
  profiles := k.profiles.trans h.profiles
  stands := k.stands.trans h.stands
  zones := k.zones.trans h.zones
  running := k.running.trans h.running
  discards := k.discards.trans h.discards

/-- The line's work keeps the tables. -/
theorem Works.tables {q : Reach} {s t : State} (w : Works q s t) : SameTables s t :=
  let f := w.frame
  ⟨f.ownAddress, f.answers, f.frameFaults, f.txPin, f.geometry, f.spans, f.grades, f.profiles, f.stands, f.zones, f.running,
    f.discards⟩

theorem SameTables.ite {b s t : State} {c : Prop} [Decidable c] (hs : SameTables b s) (ht : SameTables b t) :
    SameTables b (if c then s else t) := by
  split <;> assumption

theorem sameTables_setTallySeq (seq : Byte) (s : State) : SameTables s (setTallySeq seq s) := by constructor <;> rfl

theorem sameTables_setCutSeq (seq : Byte) (s : State) : SameTables s (setCutSeq seq s) := by constructor <;> rfl

theorem sameTables_setHeld (hs : List HeldReport) (s : State) : SameTables s (setHeld hs s) := by constructor <;> rfl

theorem sameTables_setTs (s : State) (ts : TsState) : SameTables s { s with ts := ts } := by constructor <;> rfl

/-- The handling of a gap: two pieces of the line's work about an update of the lost-tally count (R11). -/
theorem sameTables_takeGap (k : Nat) (s : State) : SameTables s (takeGap k s) := by
  unfold takeGap
  have charged : SameTables s (chargeGap evaluate (k * s.pt.geometry.maxDelta) (raiseUncertainty (k * s.pt.geometry.maxDelta) s)) :=
    (((Works.refl (q := .loud true) s).raiseUncertainty _).chargeGap (evaluate_works s) _).tables
  refine SameTables.trans (SameTables.trans charged ?_) (Works.refl (q := .loud true) _).examineTracking.tables
  constructor <;> rfl

theorem sameTables_advance (seq : Byte) (delta : Nat) (stopped : Bool) (s : State) :
    SameTables s (advance seq delta stopped s) := by
  unfold advance
  dsimp only
  have counted : SameTables s { s with pt := { s.pt with
      lineCount := satAdd lineCountMax s.pt.lineCount delta, speed := tallySpeed s delta, stopped := stopped } } := by
    constructor <;> rfl
  have told := (counted.trans ((Works.refl (q := .loud true) _).stoppedChange s.pt.stopped stopped).tables).trans
    (sameTables_setTallySeq seq _)
  exact SameTables.ite (told.trans (works_report (q := .loud true) _ _).tables) told

theorem sameTables_takeExpectedTally (seq : Byte) (delta : Nat) (stopped : Bool) (s : State) :
    SameTables s (takeExpectedTally seq delta stopped s) :=
  (sameTables_advance ..).trans ((Works.refl (q := .loud true) _).handNewCount delta).tables

theorem sameTables_takeTally (seq : Byte) (delta : Nat) (stopped : Bool) (s : State) :
    SameTables s (takeTally seq delta stopped s) := by
  unfold takeTally
  split
  · exact sameTables_setTallySeq seq s
  · split
    · exact sameTables_takeExpectedTally ..
    · split
      · exact SameTables.refl s
      · exact sameTables_takeExpectedTally ..
      · exact (sameTables_takeGap ..).trans (sameTables_takeExpectedTally ..)

theorem sameTables_takeReading (origin channel : Nat) (v : Int) (s : State) :
    SameTables s (takeReading evaluate origin channel v s) := by
  unfold takeReading
  split
  · exact sameTables_setTs s _
  · next n _ =>
    have read := (sameTables_setTs s (modTrip n (fun t => { t with lastReading := some ⟨v, s.pt.lineCount⟩ }) s).ts).trans
      (sameTables_setTs _ { (modTrip n (fun t => { t with lastReading := some ⟨v, s.pt.lineCount⟩ }) s).ts with
        readingsTaken := bump s.ts.readingsTaken 1 })
    exact SameTables.ite (read.trans ((Works.refl (q := .loud true) _).evaluateReading (evaluate_works _) n v).tables) read

theorem sameTables_reportChange (i : Nat) (e : Station) (word : Word16) (s : State) :
    SameTables s (reportChange i e word s) := by
  unfold reportChange placeChange
  dsimp only
  split
  · exact SameTables.refl s
  · split
    · exact (works_report (q := .loud true) _ _).tables
    · split <;> exact sameTables_setHeld ..

theorem sameTables_takeState (i : Nat) (e : Station) (word offset : Word16) (s : State) :
    SameTables s (takeState i e word offset s) := by
  unfold takeState
  have replaced : SameTables s (setStation i (some { e with word := word, lastOffset := offset }) s) := by constructor <;> rfl
  exact (replaced.trans (sameTables_reportChange i e word _)).trans ((Works.refl _).dispatchWord ..).tables

theorem sameTables_takeCut (seq : Byte) (offset : Nat) (trim : Bool) (s : State) :
    SameTables s (takeCut seq offset trim s) := by
  have expected : SameTables s (takeExpectedCut offset trim (setCutSeq seq s)) :=
    (sameTables_setCutSeq seq s).trans ((Works.refl (q := .loud true) _).takeExpectedCut offset trim).tables
  unfold takeCut
  split
  · exact sameTables_setCutSeq seq s
  · split
    · exact expected
    · split
      · exact ((Works.refl (q := .loud true) s).modCounters _).tables
      · exact expected
      · exact (sameTables_setCutSeq seq s).trans ((Works.refl (q := .loud true) _).takeGapCut _ offset trim).tables

theorem sameTables_forward (f : RingFrame) (s : State) : SameTables s (forward f s) := by
  unfold forward
  split <;> (constructor <;> rfl)

theorem sameTables_observe (origin : Byte) (c : Content) (s : State) : SameTables s (observe origin c s) := by
  unfold observe
  split
  · next i e _ =>
    cases c with
    | tally => exact SameTables.ite (sameTables_takeTally ..) (SameTables.refl s)
    | reading => exact SameTables.ite (sameTables_takeReading ..) (SameTables.refl s)
    | state => exact SameTables.ite (sameTables_takeState ..) (SameTables.refl s)
    | cut => exact SameTables.ite (sameTables_takeCut ..) (SameTables.refl s)
    | wrongLength => exact SameTables.ite (by constructor <;> rfl) (SameTables.refl s)
    | _ => exact SameTables.refl s
  · exact SameTables.refl s

/-- A frame of an observed kind is counted, or forwarded and observed. -/
theorem sameTables_receiveObserved {s : State} (active : s.passive = false) (h : FrameHeader) (kind : Byte) (payload : List Byte)
    {c : Content} (notRequest : ∀ p, c ≠ .request p) : SameTables s (receiveObserved h kind payload c s) := by
  have stray : SameTables s (countStray s) := by constructor <;> rfl
  have returned : SameTables s (countReturned s) := by constructor <;> rfl
  unfold receiveObserved takeFrame
  dsimp only
  rw [if_neg (by simp [active])]
  refine SameTables.ite returned (SameTables.ite ?_ ((sameTables_forward ..).trans (sameTables_observe ..)))
  cases c with
  | request p => exact absurd rfl (notRequest p)
  | foreign => exact sameTables_forward ..
  | _ => exact stray

/-- Settles O58: the four observed kinds are no requests, and what they do keeps the tables. -/
theorem observedFramesKeepTheTables : Obligations.ObservedFramesKeepTheTables := by
  rintro c s t active ⟨h, a, b, d, kind⟩ next
  have same : SameTables s t := by
    rcases kind with rfl | rfl | rfl | rfl <;> cases next <;> exact sameTables_receiveObserved active _ _ _ (by simp)
  exact ⟨same.ownAddress, same.answers, same.frameFaults, same.txPin, same.geometry, same.spans, same.grades, same.profiles,
    same.stands, same.zones, same.running, same.discards⟩

end Sys2Proof.Machine
end

section
/-! PROOFS. MARK (R198), TRIGGER_SET (R199), TRIGGER_CLEAR (R200), and the firing of trigger entries (R201, R202). -/

namespace Sys2Proof.Machine

/-! ## MARK (R198) -/

/-- Settles O52: a window that passes the two checks is answered as its insertion went. -/
theorem markClaimsAnOperatorWindow : Obligations.MarkClaimsAnOperatorWindow := by
  intro h src w length s reaches
  have answer : ∀ {t reply}, ruleMark evaluate w length s = (t, reply) →
      exec (.mark h (.fields (w, length))) s = .next (answered h src 18 reply t) := fun rule =>
    congrArg Host.Outcome.next (receiveBody_of_rule reaches (b := .mark w length) rfl rule)
  refine ⟨fun configuring => answer (if_pos (by simp [configuring])), fun running long =>
    answer ((if_neg (by simp [running])).trans (if_pos long)), fun running short t o inserted => ?_⟩
  have window : ¬windowLengthMax < length := not_lt.mpr short
  cases o <;> exact answer (by simp only [ruleMark, running, Bool.not_true, Bool.false_eq_true, if_false, if_neg window, inserted])

/-! ## TRIGGER_SET (R199) -/

theorem panelForbidsHeld_iff (b : HeldBody) : panelForbidsHeld b = true ↔
    b = .mode (.named .single) ∨ b = .mode (.named .auto) ∨ (∃ o, b = .orderFront o) ∨
      ∃ c, b = .other c ∧ c ∈ [5, 6, 8, 9, 10, 11] := by
  cases b with
  | mode m =>
    cases m with
    | beyond => simp [panelForbidsHeld]
    | named m => cases m <;> simp [panelForbidsHeld]
  | _ => simp [panelForbidsHeld]

/-- A request that its source may make is answered as the rule of its body decides (R188). -/
theorem receiveBody_of_allowed {h : ReqHeader} {src : MgmtSource} {s t : State} {reply : Reply} (reaches : Reaches h src s)
    {b : Body} (allowed : src = .panel → panelForbids b = false) (rule : applyBody h src b s = (t, reply)) :
    receiveRequest h (.body b) s = answered h src (BitVec.ofNat 8 b.code) reply t := by
  cases src with
  | supervisor => exact receiveBody_of_supervisor reaches rule
  | panel => exact receiveBody_of_rule reaches (allowed rfl) rule

section
variable {src : MgmtSource} {form : TriggerForm} {t : Trigger} {tag : Nat} {heldTag : Byte} {held : HeldBody} {s : State}

theorem ruleTriggerSet_of_configuring (configuring : s.me.running = false) :
    ruleTriggerSet src form tag heldTag held s = (s, .refused .wrongState .none .none) := if_pos (by simp [configuring])

theorem ruleTriggerSet_of_range (running : s.me.running = true) (range : namedTrigger form = none ∨ 7 < tag) :
    ruleTriggerSet src form tag heldTag held s = (s, .refused .parameter .fieldRange .none) := by
  unfold ruleTriggerSet
  rw [if_neg (by simp [running])]
  cases named : namedTrigger form with
  | none => rfl
  | some t => exact if_pos (range.resolve_left (by simp [named]))

theorem ruleTriggerSet_of_held {reply : Reply} (running : s.me.running = true) (named : namedTrigger form = some t)
    (inGroup : tag ≤ 7) (refused : heldRefusal held = some reply) :
    ruleTriggerSet src form tag heldTag held s = (s, reply) := by
  simp only [ruleTriggerSet, running, Bool.not_true, Bool.false_eq_true, if_false, named, if_neg (not_lt.mpr inGroup), refused]

/-! The last four outcomes lie behind checks 1 to 5. -/

variable (running : s.me.running = true) (named : namedTrigger form = some t) (inGroup : tag ≤ 7)
  (fits : heldRefusal held = none) (allowed : (src == .panel && panelForbidsHeld held) = false)
include running named inGroup fits allowed

theorem ruleTriggerSet_of_event {reply : Reply} (refused : eventRefusal s t = some reply) :
    ruleTriggerSet src form tag heldTag held s = (s, reply) := by
  simp only [ruleTriggerSet, running, Bool.not_true, Bool.false_eq_true, if_false, named, if_neg (not_lt.mpr inGroup), fits,
    allowed, refused]

theorem ruleTriggerSet_of_equal (event : eventRefusal s t = none) (equal : equalEntry s t held = true) :
    ruleTriggerSet src form tag heldTag held s = (s, .refused .duplicate .none .none) := by
  simp only [ruleTriggerSet, running, Bool.not_true, Bool.false_eq_true, if_false, named, if_neg (not_lt.mpr inGroup), fits,
    allowed, event, equal, if_true]
  rfl

theorem ruleTriggerSet_of_full (event : eventRefusal s t = none) (new : equalEntry s t held = false)
    (full : freeTrigger s = none) : ruleTriggerSet src form tag heldTag held s = (s, .refused .full .none .none) := by
  simp only [ruleTriggerSet, running, Bool.not_true, Bool.false_eq_true, if_false, named, if_neg (not_lt.mpr inGroup), fits,
    allowed, event, new, full]
  rfl

theorem ruleTriggerSet_of_free {i : Nat} (event : eventRefusal s t = none) (new : equalEntry s t held = false)
    (free : freeTrigger s = some i) : ruleTriggerSet src form tag heldTag held s =
      (setTrigger i (some { trigger := t, heldTag := heldTag, held := held, source := src, tag := tag }) s,
       .accepted (.entryIndex i)) := by
  simp only [ruleTriggerSet, running, Bool.not_true, Bool.false_eq_true, if_false, named, if_neg (not_lt.mpr inGroup), fits,
    allowed, event, new, free]

end

/-! ## The checks of TRIGGER_SET (R199, checks 2 to 8) -/

theorem namedTrigger_spliceDone (k : Nat) :
    namedTrigger (.spliceDone k) = if 1 ≤ k ∧ k ≤ 5 then some (.spliceDone k) else none :=
  if_congr (inRange_iff 1 5 k) rfl rfl

theorem heldRefusal_latchClear (n : Nat) (ls : LevelSet) : heldRefusal (.latchClear n ls) =
    if 16 ≤ n ∨ ls.foreign = true then some (.refused .parameter .fieldRange .none) else none :=
  if_congr (by rw [Bool.or_eq_true, decide_eq_true_iff, Config.zoneCapacity]) rfl rfl

theorem eventRefusal_lineAt (s : State) (c : Nat) :
    eventRefusal s (.lineAt c) = if c ≤ s.pt.lineCount then some (.refused .parameter .linePassed .none) else none := rfl

theorem eventRefusal_feedStart_of_gone {s : State} {o : OrderId} (gone : orderOf s o = none) :
    eventRefusal s (.feedStart o) = some (.refused .notFound .none .none) := by
  simp only [eventRefusal, gone]
  rfl

theorem eventRefusal_feedStart {s : State} {o : OrderId} {x : Order} (found : orderOf s o = some x) :
    eventRefusal s (.feedStart o) =
      if x.feed = .queued ∨ x.feed = .next then none else some (.refused .tooLate .none .none) := by
  simp only [eventRefusal, found, Bool.or_eq_true, beq_iff_eq]
  rfl

theorem eventRefusal_orderClosed (s : State) (o : OrderId) :
    eventRefusal s (.orderClosed o) = if (orderOf s o).isSome = true then none else some (.refused .notFound .none .none) := rfl

theorem eventRefusal_spliceDone (s : State) (k : Nat) : eventRefusal s (.spliceDone k) =
    if k ≤ s.sc.stands.length then none else some (.refused .notFound .none .none) := rfl

theorem eventRefusal_feedStart_eq_none_iff (s : State) (o : OrderId) : eventRefusal s (.feedStart o) = none ↔
    ∃ x, orderOf s o = some x ∧ (x.feed = .queued ∨ x.feed = .next) := by
  cases found : orderOf s o with
  | none => simp [eventRefusal_feedStart_of_gone found]
  | some x => simp [eventRefusal_feedStart found, or_iff_not_imp_left]

theorem freeTrigger_eq_some_iff (s : State) (i : Nat) : freeTrigger s = some i ↔
    i < s.me.triggers.length ∧ triggerAt s i = none ∧ ∀ j < i, triggerAt s j ≠ none := by
  rw [freeTrigger, List.find?_range_eq_some]
  simp only [List.mem_range, Option.isNone_iff_eq_none, Bool.not_eq_true', Option.isNone_eq_false_iff, Option.isSome_iff_ne_none]
  tauto

theorem freeTrigger_of_full {s : State} (full : ∀ x ∈ s.me.triggers, x ≠ none) : freeTrigger s = none := by
  refine List.find?_eq_none.mpr fun i inside => ?_
  have at_i := List.getElem?_eq_getElem (List.mem_range.mp inside)
  have used := full _ (List.mem_of_getElem? at_i)
  simpa [triggerAt, at_i] using used

theorem equalEntry_iff (s : State) (t : Trigger) (b : HeldBody) :
    equalEntry s t b = true ↔ ∃ e, some e ∈ s.me.triggers ∧ e.trigger = t ∧ e.held = b := by
  rw [equalEntry, List.any_eq_true]
  constructor
  · rintro ⟨x, mem, equal⟩
    cases x with
    | none => cases equal
    | some e => exact ⟨e, mem, by simpa using equal⟩
  · rintro ⟨e, mem, trigger, same⟩
    exact ⟨some e, mem, by simp [trigger, same]⟩

/-! ## TRIGGER_CLEAR (R200) -/

theorem ruleTriggerClear_of_found {src : MgmtSource} {i : Nat} {e : TriggerEntry} {s : State} (inside : i < 8)
    (found : triggerAt s i = some e) : ruleTriggerClear src (.index i) s =
      if e.source = src then (setTrigger i none s, .accepted (.indices [i])) else (s, .refused .notPermitted .none .none) := by
  have inside : ¬Config.triggerCapacity ≤ i := not_le.mpr inside
  simp only [ruleTriggerClear, if_neg inside, found]
  by_cases own : e.source = src
  · rw [if_pos own]
    exact if_neg (by simp [own])
  · rw [if_neg own]
    exact if_pos (by simpa using own)

theorem ruleTriggerClear_of_empty {src : MgmtSource} {i : Nat} {s : State} (inside : i < 8) (empty : triggerAt s i = none) :
    ruleTriggerClear src (.index i) s = (s, .refused .notFound .none .none) := by
  have inside : ¬Config.triggerCapacity ≤ i := not_le.mpr inside
  simp only [ruleTriggerClear, if_neg inside, empty]
  rfl

theorem ruleTriggerClear_of_index {i : Nat} (outside : 8 ≤ i) (src : MgmtSource) (s : State) :
    ruleTriggerClear src (.index i) s = (s, .refused .parameter .fieldRange .none) := if_pos outside

theorem ruleTriggerClear_of_tag {t : Nat} (outside : t = 0 ∨ 7 < t) (src : MgmtSource) (s : State) :
    ruleTriggerClear src (.tag t) s = (s, .refused .parameter .fieldRange .none) := by
  have range : ¬inRange 1 7 t = true := by
    rw [inRange_iff]
    omega
  exact if_pos (by simpa using range)

theorem ruleTriggerClear_of_group {t : Nat} (low : 1 ≤ t) (high : t ≤ 7) (src : MgmtSource) (s : State) :
    ruleTriggerClear src (.tag t) s =
      if (((groupEntries s t).filter fun g => g.2.source == src).map (·.1)).isEmpty = true then
        (s, .refused .notFound .none .none)
      else (removeTriggers (((groupEntries s t).filter fun g => g.2.source == src).map (·.1)) s,
        .accepted (.indices (((groupEntries s t).filter fun g => g.2.source == src).map (·.1)))) :=
  if_neg (by simpa using (inRange_iff 1 7 t).mpr ⟨low, high⟩)

/-! ## Firing (R201, R202) -/

theorem removeTriggers_eq (is : List Nat) (s : State) :
    removeTriggers is s = { s with me := { s.me with triggers := is.foldl (fun l i => l.set i none) s.me.triggers } } := by
  unfold removeTriggers
  exact List.foldl_hom (fun triggers => { s with me := { s.me with triggers := triggers } })
    (g₁ := fun l i => l.set i none) (g₂ := fun s i => setTrigger i none s) fun _ _ => rfl

theorem groupEntries_eq (s : State) (tag : Nat) : groupEntries s tag = (List.range s.me.triggers.length).filterMap fun i =>
    (triggerAt s i).bind fun e => if e.tag = tag then some (i, e) else none := by
  refine List.filterMap_congr fun i _ => ?_
  cases triggerAt s i with
  | none => rfl
  | some e => exact if_congr beq_iff_eq rfl rfl

theorem fireEntry_of_accepted {i : Nat} {e : TriggerEntry} {s t : State} {b : AnswerBody}
    (ran : executeHeld evaluateHeld e.source e.held (setTrigger i none s) = (t, .accepted b)) :
    fireEntry i e s = triggerReport i e .done (some (.accepted b)) t := by
  simp only [fireEntry, ran, Reply.isRefused, Bool.false_eq_true, if_false]

/-- A refused held request takes the entries of its group with it (R202). -/
theorem fireEntry_of_refused {i : Nat} {e : TriggerEntry} {s t : State} {r : Reason} {d : Detail} {x : Subject}
    {rest : List (Nat × TriggerEntry)} (ran : executeHeld evaluateHeld e.source e.held (setTrigger i none s) = (t, .refused r d x))
    (group : (if e.tag = 0 then [] else groupEntries t e.tag) = rest) :
    fireEntry i e s =
      triggerReport i e
        (if rest.isEmpty = true then .refused else .broken (rest.map fun g => (g.1, g.2.trigger, g.2.held.code)))
        (some (.refused r d x)) (removeTriggers (rest.map (·.1)) t) := by
  simp only [fireEntry, ran, Reply.isRefused, if_true, beq_iff_eq, group]

theorem executeHeld_of_forbidden {src : MgmtSource} {b : HeldBody} (panel : src = .panel) (forbidden : panelForbidsHeld b = true)
    (ev : State → State) (s : State) : executeHeld ev src b s = (s, .refused .notPermitted .none .none) :=
  if_pos (by simp [panel, forbidden])

theorem not_forbidden {src : MgmtSource} {b : HeldBody} (allowed : src = .panel → panelForbidsHeld b = false) :
    (src == .panel && panelForbidsHeld b) = false := by
  cases src with
  | supervisor => rfl
  | panel => exact allowed rfl

/-- Settles O53: the checks of R199 and R200 in their order, and the steps of a firing. -/
theorem triggerEntriesAreSetAndCleared : Obligations.TriggerEntriesAreSetAndCleared := by
  have set : ∀ {h src form tag ht held s t reply}, Reaches h src s → (src = .panel → panelForbidsHeld held = false) →
      ruleTriggerSet src form tag ht held s = (t, reply) →
      exec (.triggerSet h (.fields (form, tag, ht, held))) s = .next (answered h src 19 reply t) :=
    fun {_ _ form tag ht held _ _ _} reaches allowed rule =>
      congrArg Host.Outcome.next (receiveBody_of_allowed reaches (b := .triggerSet form tag ht held) allowed rule)
  have clear : ∀ {h src name s t reply}, Reaches h src s → ruleTriggerClear src name s = (t, reply) →
      exec (.triggerClear h (.fields name)) s = .next (answered h src 20 reply t) := fun {_ _ name _ _ _} reaches rule =>
    congrArg Host.Outcome.next (receiveBody_of_rule reaches (b := .triggerClear name) rfl rule)
  refine ⟨fun h src s reaches => ⟨fun form tag ht held configuring allowed => ?_, fun form tag ht held panel forbidden => ?_,
      fun form t tag ht held i running named inGroup fits allowed event new free => ?_, fun i e inside found own => ?_,
      fun i e inside found other => ?_, fun i inside empty => ?_, fun t low high => ⟨fun gone => ?_, fun more => ?_⟩⟩,
    fun h src form tag ht held s reaches running allowed => ⟨fun range => ?_, fun t named inGroup =>
      ⟨fun reply refused => ?_, fun fits => ?_⟩⟩,
    fun form held => ⟨?_, ?_⟩, fun p s => ⟨fun configuring => ?_, fun running => ?_⟩, fun i s => rfl, fun f p s => ?_,
    fun i e s => ?_, fun ev src b s => ?_, fun h src s reaches => ⟨fun i outside => ?_, fun t outside => ?_⟩,
    fun t b s => ⟨freeTrigger_eq_some_iff s, equalEntry_iff s t b, panelForbidsHeld_iff b, ?_⟩,
    fun i tag is s => ⟨rfl, ?_, removeTriggers_eq is s⟩, fun i e o r s => rfl⟩
  · exact set reaches allowed (ruleTriggerSet_of_configuring configuring)
  · subst panel
    exact congrArg Host.Outcome.next (receiveBody_of_forbidden reaches (b := .triggerSet form tag ht held) forbidden)
  · exact set reaches allowed (ruleTriggerSet_of_free running named inGroup fits (not_forbidden allowed) event new free)
  · exact clear reaches ((ruleTriggerClear_of_found inside found).trans (if_pos own))
  · exact clear reaches ((ruleTriggerClear_of_found inside found).trans (if_neg other))
  · exact clear reaches (ruleTriggerClear_of_empty inside empty)
  · exact clear reaches ((ruleTriggerClear_of_group low high src s).trans (if_pos (List.isEmpty_iff.mpr gone)))
  · exact clear reaches ((ruleTriggerClear_of_group low high src s).trans (if_neg (mt List.isEmpty_iff.mp more)))
  · exact set reaches allowed (ruleTriggerSet_of_range running range)
  · exact set reaches allowed (ruleTriggerSet_of_held running named inGroup refused)
  · have refuse : ∀ {reply}, eventRefusal s t = some reply →
        exec (.triggerSet h (.fields (form, tag, ht, held))) s = .next (answered h src 19 reply s) := fun refused =>
      set reaches allowed (ruleTriggerSet_of_event running named inGroup fits (not_forbidden allowed) refused)
    refine ⟨?_, ?_, ?_, ?_, ?_, fun event equal => ?_, fun event new full => ?_⟩
    · rintro c rfl passed
      exact refuse (if_pos passed)
    · rintro o rfl gone
      exact refuse (eventRefusal_feedStart_of_gone gone)
    · rintro o x rfl found notQueued notNext
      exact refuse ((eventRefusal_feedStart found).trans (if_neg (by simp [notQueued, notNext])))
    · rintro o rfl gone
      exact refuse (if_neg (by simp [gone]))
    · rintro k rfl beyond
      exact refuse (if_neg (not_le.mpr beyond))
    · exact set reaches allowed (ruleTriggerSet_of_equal running named inGroup fits (not_forbidden allowed) event equal)
    · exact set reaches allowed
        (ruleTriggerSet_of_full running named inGroup fits (not_forbidden allowed) event new (freeTrigger_of_full full))
  · cases form with
    | spliceDone k => exact namedTrigger_spliceDone k
    | _ => rfl
  · cases held with
    | latchClear n ls => exact heldRefusal_latchClear n ls
    | mode m => cases m <;> rfl
    | _ => rfl
  · exact if_neg (by simp [configuring])
  · exact if_pos running
  · refine congrArg (fun step => List.foldl step s (List.range 8)) (funext fun t => funext fun i => ?_)
    cases triggerAt t i <;> rfl
  · intro x rest
    refine ⟨fun b accepted => ?_, fun r d y refused alone => ?_, fun r d y refused others => ?_⟩
    · rw [accepted]
      exact fireEntry_of_accepted (Prod.ext rfl accepted)
    · rw [refused]
      exact fireEntry_of_refused (Prod.ext rfl refused) alone
    · rw [refused]
      refine (fireEntry_of_refused (Prod.ext rfl refused) (rest := rest) rfl).trans ?_
      rw [if_neg (mt List.isEmpty_iff.mp others)]
      exact congrArg (triggerReport i e _ _) List.foldl_map
  · by_cases forbidden : src = .panel ∧ panelForbidsHeld b = true
    · rw [if_pos forbidden]
      exact executeHeld_of_forbidden forbidden.1 forbidden.2 ev s
    · rw [if_neg forbidden]
      refine (if_neg (by simpa using forbidden)).trans ?_
      cases b <;> rfl
  · exact clear reaches (ruleTriggerClear_of_index outside src s)
  · exact clear reaches (ruleTriggerClear_of_tag outside src s)
  · cases t with
    | lineAt c => simp [eventRefusal_lineAt]
    | feedStart o => exact eventRefusal_feedStart_eq_none_iff s o
    | orderClosed o => simp [eventRefusal_orderClosed, Option.isSome_iff_ne_none]
    | spliceDone k => simp [eventRefusal_spliceDone]
  · rw [groupEntries_eq]
    refine List.filterMap_congr fun i _ => ?_
    cases triggerAt s i <;> rfl

end Sys2Proof.Machine
end

section
/-! PROOFS. START (R194, R195): its checks in their order, and its effects. -/

namespace Sys2Proof.Machine

/-! ## The checks of START (R194) -/

theorem find?_congr_mem {α : Type} {p q : α → Bool} {l : List α} (same : ∀ x ∈ l, p x = q x) : l.find? p = l.find? q := by
  induction l with
  | nil => rfl
  | cons x t ih =>
    rw [List.find?_cons, List.find?_cons, same x List.mem_cons_self, ih fun y mem => same y (List.mem_cons_of_mem x mem)]

/-- The configured stands' numbers name stands. -/
theorem exists_standOf {s : State} {k : Nat} (mem : k ∈ standNumbers s) : ∃ r, standOf s k = some r := by
  obtain ⟨i, inside, rfl⟩ := List.mem_map.mp mem
  exact ⟨_, List.getElem?_eq_getElem (List.mem_range.mp inside)⟩

theorem swapOwedStand_eq (s : State) : swapOwedStand s = failingStand s fun r => !r.splice.swapOwed :=
  find?_congr_mem fun k _ => by cases standOf s k <;> simp

theorem rolllessStand_eq (s : State) :
    rolllessStand s = if s.sc.stands.length = 0 then some 0 else failingStand s fun r => r.active.isSome := by
  refine if_congr beq_iff_eq rfl (find?_congr_mem fun k mem => ?_)
  obtain ⟨r, found⟩ := exists_standOf mem
  rw [found]
  cases active : r.active <;> simp [active]

/-- The station that a zone names is in role ZONE (R152). -/
def zoneServed (s : State) (z : Zone) : Bool :=
  match z.station.bind (stationAt s) with
  | some e => e.2.role == .zone
  | none => false

theorem stationlessZone_eq (s : State) : stationlessZone s = failingZone s (zoneServed s) := by
  refine congrArg (failingZone s) (funext fun z => ?_)
  unfold zoneServed
  cases z.station.bind fun a => stationAt s a <;> rfl

theorem emptyGrade_eq (s : State) : (emptyGrade s).map (fun g => badSubject .gradeEmpty (.grade g)) =
    (s.os.orders.find? fun o => (gradeOf s o.grade).isNone).map fun o => .refused .parameter .gradeEmpty (.grade o.grade) := by
  rw [emptyGrade, Option.map_map]
  rfl

/-- A check that is a list of checks stands for the list. -/
theorem findSome?_flatten {α : Type} (before inner after : List (Option α)) :
    (before ++ inner.findSome? id :: after).findSome? id = (before ++ inner ++ after).findSome? id := by
  rw [List.findSome?_append, List.findSome?_append, List.findSome?_append, List.findSome?_cons]
  cases before.findSome? id with
  | some x => rfl
  | none => cases inner.findSome? id <;> rfl

/-! ## Its effects (R195) -/

/-- Copies into the stand records change no other record. -/
theorem foldl_modStand_sc (f : State → Nat → Stand → Stand) (ks : List Nat) (s : State) :
    ks.foldl (fun s k => modStand k (f s k) s) s =
      { s with sc := (ks.foldl (fun s k => modStand k (f s k) s) s).sc } := by
  induction ks generalizing s with
  | nil => rfl
  | cons k t ih =>
    refine (ih (modStand k (f s k) s)).trans ?_
    cases k <;> rfl

theorem copyAddresses_eq (s : State) : copyAddresses s = { s with sc := (copyAddresses s).sc } :=
  foldl_modStand_sc (fun s k r => { r with address := (stationIn s (.stand k)).map (·.address) }) _ s

/-- Behind the line count, the part state and the addresses, START is the line's work. -/
theorem works_startEffects (s : State) : Works (.loud true) (copyAddresses (enterRunning s)) (startEffects s) :=
  (((((Works.refl _).direct _ _).knifeStart .a).knifeStart .b).cutsStart.tripsStart (evaluate_works _)).evaluate

/-- Settles O54: START is refused by the first check that fails; what it enters is kept by the work that follows. -/
theorem startEntersRunning : Obligations.StartEntersRunning := by
  have answer : ∀ {h s t reply}, Reaches h .supervisor s → ruleStart s = (t, reply) →
      exec (.start h (.fields ())) s = .next (answered h .supervisor 5 reply t) := fun reaches rule =>
    congrArg Host.Outcome.next (receiveBody_of_supervisor reaches (b := .start) rule)
  refine ⟨fun h s reaches => ⟨fun running => ?_, fun free => ?_⟩, fun h x s reaches refused => ?_, fun s => ?_, fun s => ?_⟩
  · refine answer reaches (refuseOr_of_some ?_ ..)
    rw [startRefusal, if_pos running]
    rfl
  · have entered := copyAddresses_eq (enterRunning s)
    have kept := (works_startEffects s).frame
    refine ⟨startEffects s, answer reaches (refuseOr_of_none free ..), rfl, ?_⟩
    exact ⟨kept.running.trans (congrArg (·.me.running) entered), kept.lineCount.trans (congrArg (·.pt.lineCount) entered),
      kept.lastSeq.trans (congrArg (·.pt.lastSeq) entered), kept.speed.trans (congrArg (·.pt.speed) entered),
      kept.stopped.trans (congrArg (·.pt.stopped) entered), kept.geometry.trans (congrArg (·.pt.geometry) entered),
      kept.spans.trans (congrArg (·.sm.spans) entered), kept.grades.trans (congrArg (·.zr.grades) entered),
      kept.profiles.trans (congrArg (·.zr.profiles) entered), kept.stations.trans (congrArg (·.ri.stations) entered),
      kept.cutSeq.trans (congrArg (·.cs.lastSeq) entered)⟩
  · exact answer reaches (refuseOr_of_some refused ..)
  · intro bad stands stand zone g within roles inOrder served
    have isServed : zoneServed s = served := funext fun z => by
      unfold zoneServed
      rfl
    rw [startRefusal, swapOwedStand_eq, rolllessStand_eq, stationlessZone_eq, emptyGrade_eq, isServed]
    refine (findSome?_flatten [_, _, _, _] _ [_, _]).trans ?_
    simp only [within, Bool.decide_and]
    rfl
  · rfl

end Sys2Proof.Machine
end

section
/-! PROOFS. RESTART (R196): the records each block leaves, apart from the reports and directives it sends. -/

namespace Sys2Proof.Machine

/-! ## Reports and directives -/

/-- From `s` to `t` reports and directives were placed, and nothing was changed but what these leave: the two queues with their
counts, and what a discarded directive claims (R179, R182). -/
structure Sends (s t : State) : Prop where
  ri : t.ri = { s.ri with
    directives := t.ri.directives, discardedDirectives := t.ri.discardedDirectives, reports := t.ri.reports,
    reportNumber := t.ri.reportNumber, reportsLost := t.ri.reportsLost }
  pt : t.pt = { s.pt with stop := t.pt.stop }
  sm : t.sm = s.sm
  os : t.os = { s.os with mode := t.os.mode, holdCause := t.os.holdCause }
  mode : s.os.mode = .hold → t.os.mode = .hold
  kc : t.kc = s.kc
  cs : t.cs = s.cs
  sc : t.sc = s.sc
  zr : t.zr = s.zr
  ts : t.ts = s.ts
  me : t.me = s.me
  freeIndex : t.freeIndex = s.freeIndex

theorem Sends.refl (s : State) : Sends s s := ⟨rfl, rfl, rfl, rfl, id, rfl, rfl, rfl, rfl, rfl, rfl, rfl⟩

theorem Sends.trans {a b c : State} (h : Sends a b) (k : Sends b c) : Sends a c where
  ri := by rw [k.ri, h.ri]
  pt := by rw [k.pt, h.pt]
  sm := k.sm.trans h.sm
  os := by rw [k.os, h.os]
  mode := k.mode ∘ h.mode
  kc := k.kc.trans h.kc
  cs := k.cs.trans h.cs
  sc := k.sc.trans h.sc
  zr := k.zr.trans h.zr
  ts := k.ts.trans h.ts
  me := k.me.trans h.me
  freeIndex := k.freeIndex.trans h.freeIndex

/-- From `s` to `t` the directives `ds` were placed, in this order, and none was discarded. -/
structure Placed (ds : List PlacedDirective) (s t : State) : Prop where
  directives : t.ri.directives = s.ri.directives ++ ds
  stop : t.pt.stop = s.pt.stop
  holdCause : t.os.holdCause = s.os.holdCause

theorem Placed.refl (s : State) : Placed [] s s := ⟨(List.append_nil _).symm, rfl, rfl⟩

theorem Placed.trans {ds es : List PlacedDirective} {a b c : State} (h : Placed ds a b) (k : Placed es b c) :
    Placed (ds ++ es) a c where
  directives := by rw [k.directives, h.directives, List.append_assoc]
  stop := k.stop.trans h.stop
  holdCause := k.holdCause.trans h.holdCause

theorem sends_report (b : ReportBody) (s : State) : Sends s (report b s) := by
  unfold report
  dsimp only
  split <;> exact ⟨rfl, rfl, rfl, rfl, id, rfl, rfl, rfl, rfl, rfl, rfl, rfl⟩

theorem placed_report (b : ReportBody) (s : State) : Placed [] s (report b s) := by
  unfold report
  dsimp only
  split <;> exact ⟨(List.append_nil _).symm, rfl, rfl⟩

theorem sends_claimStop (c : StopCause) (s : State) : Sends s (claimStop c s) := by
  have claimed : Sends s { s with pt := { s.pt with stop := s.pt.stop ++ [c] } } :=
    ⟨rfl, rfl, rfl, rfl, id, rfl, rfl, rfl, rfl, rfl, rfl, rfl⟩
  have stopped : ∀ u, Sends u (placeStop u) := fun u => by
    unfold placeStop
    split
    · split
      · exact ⟨rfl, rfl, rfl, rfl, id, rfl, rfl, rfl, rfl, rfl, rfl, rfl⟩
      · exact Sends.refl u
    · exact Sends.refl u
  unfold claimStop
  split
  · exact Sends.refl s
  · exact (claimed.trans (stopped _)).trans (sends_report ..)

theorem sends_placeDirective (target : Nat) (d : Directive) (s : State) : Sends s (placeDirective target d s) := by
  unfold placeDirective
  split
  · exact ⟨rfl, rfl, rfl, rfl, id, rfl, rfl, rfl, rfl, rfl, rfl, rfl⟩
  · have counted : Sends s { s with ri := { s.ri with discardedDirectives := bump s.ri.discardedDirectives 1 } } :=
      ⟨rfl, rfl, rfl, rfl, id, rfl, rfl, rfl, rfl, rfl, rfl, rfl⟩
    have held : ∀ u, Sends u (stopClaim .directiveOverflow u) := fun u =>
      ⟨rfl, rfl, rfl, rfl, fun _ => rfl, rfl, rfl, rfl, rfl, rfl, rfl, rfl⟩
    exact (counted.trans (sends_claimStop ..)).trans (held _)

/-- A directive that replaces none is placed behind the others, where the queue has room (R179). -/
theorem placed_placeDirective {target : Nat} {d : Directive} {s : State} (alone : ∀ x, replaces ⟨target, d⟩ x = false)
    (room : s.ri.directives.length + 2 ≤ 48) : Placed [⟨target, d⟩] s (placeDirective target d s) := by
  have unreplaced : ¬s.ri.directives.any (replaces ⟨target, d⟩) = true := by simp [alone]
  have placed : enqueue ⟨target, d⟩ s.ri.directives = some (s.ri.directives ++ [⟨target, d⟩]) := by
    rw [enqueue, if_neg unreplaced, if_pos (show s.ri.directives.length + 2 ≤ Config.directiveCapacity from room), ite_self]
  unfold placeDirective
  rw [placed]
  exact ⟨rfl, rfl, rfl⟩

/-! ## Updates behind what was sent -/

theorem Sends.setOs {s t : State} (h : Sends s t) (os : OsState) : Sends { s with os := os } { t with os := os } :=
  ⟨h.ri, h.pt, h.sm, rfl, id, h.kc, h.cs, h.sc, h.zr, h.ts, h.me, h.freeIndex⟩

theorem Sends.modKnife {s t : State} (h : Sends s t) (k : KnifeId) (f : KnifeRecord → KnifeRecord) :
    Sends (modKnife k f s) (modKnife k f t) := by
  cases k
  · exact ⟨h.ri, h.pt, h.sm, h.os, h.mode, by simp only [Machine.modKnife, h.kc], h.cs, h.sc, h.zr, h.ts, h.me, h.freeIndex⟩
  · exact ⟨h.ri, h.pt, h.sm, h.os, h.mode, by simp only [Machine.modKnife, h.kc], h.cs, h.sc, h.zr, h.ts, h.me, h.freeIndex⟩

theorem Placed.modKnife {ds : List PlacedDirective} {s t : State} (h : Placed ds s t) (k : KnifeId)
    (f : KnifeRecord → KnifeRecord) : Placed ds s (modKnife k f t) := by
  cases k <;> exact ⟨h.directives, h.stop, h.holdCause⟩

theorem Placed.modStand {ds : List PlacedDirective} {s t : State} (h : Placed ds s t) (k : Nat) (f : Stand → Stand) :
    Placed ds s (modStand k f t) := by
  cases k <;> exact ⟨h.directives, h.stop, h.holdCause⟩

theorem Sends.setCs {s t : State} (h : Sends s t) (f : CsState → CsState) :
    Sends { s with cs := f s.cs } { t with cs := f t.cs } :=
  ⟨h.ri, h.pt, h.sm, h.os, h.mode, h.kc, congrArg f h.cs, h.sc, h.zr, h.ts, h.me, h.freeIndex⟩

theorem Sends.setSc {s t : State} (h : Sends s t) (f : ScState → ScState) :
    Sends { s with sc := f s.sc } { t with sc := f t.sc } :=
  ⟨h.ri, h.pt, h.sm, h.os, h.mode, h.kc, h.cs, congrArg f h.sc, h.zr, h.ts, h.me, h.freeIndex⟩

theorem Sends.setZr {s t : State} (h : Sends s t) (f : ZrState → ZrState) :
    Sends { s with zr := f s.zr } { t with zr := f t.zr } :=
  ⟨h.ri, h.pt, h.sm, h.os, h.mode, h.kc, h.cs, h.sc, congrArg f h.zr, h.ts, h.me, h.freeIndex⟩

theorem Sends.setTs {s t : State} (h : Sends s t) (f : TsState → TsState) :
    Sends { s with ts := f s.ts } { t with ts := f t.ts } :=
  ⟨h.ri, h.pt, h.sm, h.os, h.mode, h.kc, h.cs, h.sc, h.zr, congrArg f h.ts, h.me, h.freeIndex⟩

theorem Sends.setMe {s t : State} (h : Sends s t) (f : MeState → MeState) :
    Sends { s with me := f s.me } { t with me := f t.me } :=
  ⟨h.ri, h.pt, h.sm, h.os, h.mode, h.kc, h.cs, h.sc, h.zr, h.ts, congrArg f h.me, h.freeIndex⟩

/-! ## The blocks, one by one -/

/-- The orders after RESTART (R70). -/
def restartedOs (s : State) : OsState :=
  { orders := (s.os.orders.filter fun o => !isAbandoned o).map keptOrder, mode := .hold, holdCause := .restart, heldReason := none,
    compensation := 0, credits := [] }

theorem sends_reports {α : Type} (body : α → ReportBody) (l : List α) (s : State) :
    Sends s (l.foldl (fun s x => report (body x) s) s) ∧ Placed [] s (l.foldl (fun s x => report (body x) s) s) := by
  induction l generalizing s with
  | nil => exact ⟨Sends.refl s, Placed.refl s⟩
  | cons x t ih =>
    obtain ⟨sends, placed⟩ := ih (report (body x) s)
    exact ⟨(sends_report ..).trans sends, (placed_report ..).trans placed⟩

theorem ordersRestart_sends (s : State) :
    Sends { s with os := restartedOs s } (ordersRestart s) ∧ Placed [] { s with os := restartedOs s } (ordersRestart s) := by
  obtain ⟨sends, placed⟩ := sends_reports (fun o => .order o .abandoned) (s.os.orders.filter isAbandoned) s
  have left : ordersRestart s = { (s.os.orders.filter isAbandoned).foldl (fun s o => report (.order o .abandoned) s) s with
      os := restartedOs s } := by
    have orders := congrArg OsState.orders sends.os
    unfold ordersRestart restartedOs
    dsimp only at orders ⊢
    rw [orders]
  rw [left]
  exact ⟨sends.setOs _, ⟨placed.directives, placed.stop, rfl⟩⟩

/-- A knife station after RESTART (R85). -/
def restartedKnife (r : KnifeRecord) : KnifeRecord := { idleKnife with held := r.held }

theorem knifeRestart_eq (k : KnifeId) (s : State) : knifeRestart k s = modKnife k restartedKnife
    (if (knifeOf s k).state = .engaged then direct (knifeRole k) (.lift .atOnce) s else s) :=
  congrArg (modKnife k restartedKnife) (if_congr beq_iff_eq rfl rfl)

theorem knifeRestart_sends (k : KnifeId) (s : State) : Sends (modKnife k restartedKnife s) (knifeRestart k s) := by
  rw [knifeRestart_eq]
  split
  · exact (sends_placeDirective ..).modKnife k restartedKnife
  · exact Sends.refl _

/-- The LIFT that a knife station's RESTART sends (R85). -/
def liftOf (s : State) (k : KnifeId) : List PlacedDirective :=
  if (knifeOf s k).state = .engaged then [⟨roleAddress s (knifeRole k), .lift .atOnce⟩] else []

theorem knifeRestart_placed {k : KnifeId} {s : State} (room : s.ri.directives.length + 2 ≤ 48) :
    Placed (liftOf s k) s (knifeRestart k s) := by
  rw [knifeRestart_eq, liftOf]
  split
  · exact (placed_placeDirective (fun _ => rfl) room).modKnife k restartedKnife
  · exact (Placed.refl s).modKnife k restartedKnife

/-- The Cut Classifier after RESTART (R109). -/
def restartedCs (c : CsState) : CsState :=
  { c with lastSeq := none, prevWc := none, plan := [], gate := ⟨true, none⟩,
           stacker := { resetStacker with position := c.stacker.position }, counters := zeroCounters }

theorem abandonStack_sends (x : Option Stack) (s : State) :
    Sends s (abandonStack x s) ∧ Placed [] s (abandonStack x s) := by
  cases x with
  | none => exact ⟨Sends.refl s, Placed.refl s⟩
  | some k => exact ⟨sends_report .., placed_report ..⟩

theorem cutsRestart_eq (s : State) : cutsRestart s =
    { abandonStack s.cs.stacker.deck (abandonStack s.cs.stacker.current s) with cs := restartedCs s.cs } := by
  have kept := ((abandonStack_sends s.cs.stacker.current s).1.trans (abandonStack_sends s.cs.stacker.deck _).1).cs
  unfold cutsRestart restartedCs
  dsimp only
  rw [kept]

theorem cutsRestart_sends (s : State) : Sends { s with cs := restartedCs s.cs } (cutsRestart s) := by
  have sends := (abandonStack_sends s.cs.stacker.current s).1.trans (abandonStack_sends s.cs.stacker.deck _).1
  rw [cutsRestart_eq]
  exact ⟨sends.ri, sends.pt, sends.sm, sends.os, sends.mode, sends.kc, rfl, sends.sc, sends.zr, sends.ts, sends.me, sends.freeIndex⟩

theorem cutsRestart_placed (s : State) : Placed [] s (cutsRestart s) := by
  have placed := (abandonStack_sends s.cs.stacker.current s).2.trans (abandonStack_sends s.cs.stacker.deck _).2
  rw [cutsRestart_eq]
  exact ⟨placed.directives, placed.stop, placed.holdCause⟩

/-! ## The stands (R135) -/

/-- A stand after RESTART (R135). -/
def restartedStand (r : Stand) : Stand :=
  { r with
    jointRef := none, mismatch := none,
    splice := { idleSplice with
      swapOwed := r.splice.swapOwed || r.splice.state == .pasting,
      pasteTimer := if r.splice.state = .pasting then r.splice.pasteTimer else none } }

theorem restartedStand_eq (r : Stand) : restartedStand r =
    { r with jointRef := none, mismatch := none,
             splice := if r.splice.state == .pasting then
                 { idleSplice with swapOwed := true, pasteTimer := r.splice.pasteTimer }
               else { idleSplice with swapOwed := r.splice.swapOwed } } := by
  unfold restartedStand
  by_cases pasting : r.splice.state = .pasting
  · rw [if_pos pasting, if_pos (beq_iff_eq.mpr pasting), pasting, beq_self_eq_true, Bool.or_true]
  · rw [if_neg pasting, if_neg (mt beq_iff_eq.mp pasting), beq_false_of_ne pasting, Bool.or_false]
    rfl

/-- The ABORT that a stand's RESTART sends (R135). -/
def abortOf (r : Stand) : List PlacedDirective :=
  if r.splice.state = .accelerating ∨ r.splice.state = .matched then [⟨r.address.getD 0, .abort⟩] else []

theorem spliceRestart_eq {k : Nat} {r : Stand} {s : State} (found : standOf s k = some r) : spliceRestart k s =
    if r.splice.state = .idle ∨ r.splice.state = .fault ∨ r.splice.state = .pasting then
      modStand k restartedStand
        (if r.splice.state = .accelerating ∨ r.splice.state = .matched then directStand k .abort s else s)
    else spliceReport k r .abandoned none none none (modStand k restartedStand
      (if r.splice.state = .accelerating ∨ r.splice.state = .matched then directStand k .abort s else s)) := by
  have ended : abortIfRunning k r s =
      if r.splice.state = .accelerating ∨ r.splice.state = .matched then directStand k .abort s else s :=
    if_congr (by simp) rfl rfl
  have cleared : restartedStand = fun r : Stand =>
      { r with jointRef := none, mismatch := none,
               splice := if r.splice.state == .pasting then
                   { idleSplice with swapOwed := true, pasteTimer := r.splice.pasteTimer }
                 else { idleSplice with swapOwed := r.splice.swapOwed } } := funext restartedStand_eq
  rw [← ended, cleared]
  unfold spliceRestart
  rw [found]
  dsimp only
  cases r.splice.state <;> rfl

theorem Sends.modStand {s t : State} (h : Sends s t) (k : Nat) (f : Stand → Stand) : Sends (modStand k f s) (modStand k f t) := by
  cases k with
  | zero => exact h
  | succ i => exact h.setSc fun sc => { sc with stands := sc.stands.modify i f }

theorem spliceRestart_sends {k : Nat} {r : Stand} {s : State} (found : standOf s k = some r) :
    Sends (modStand k restartedStand s) (spliceRestart k s) := by
  have ended : Sends s (if r.splice.state = .accelerating ∨ r.splice.state = .matched then directStand k .abort s else s) := by
    split
    · exact sends_placeDirective ..
    · exact Sends.refl s
  rw [spliceRestart_eq found]
  split
  · exact ended.modStand k restartedStand
  · exact (ended.modStand k restartedStand).trans (sends_report ..)

theorem spliceRestart_placed {k : Nat} {r : Stand} {s : State} (found : standOf s k = some r)
    (room : s.ri.directives.length + 2 ≤ 48) : Placed (abortOf r) s (spliceRestart k s) := by
  have ended : Placed (abortOf r) s
      (if r.splice.state = .accelerating ∨ r.splice.state = .matched then directStand k .abort s else s) := by
    unfold abortOf directStand
    rw [found]
    split
    · exact placed_placeDirective (fun _ => rfl) room
    · exact Placed.refl s
  rw [spliceRestart_eq found]
  split
  · exact ended.modStand k restartedStand
  · exact List.append_nil (abortOf r) ▸ (ended.modStand k restartedStand).trans (placed_report ..)

/-- The stands with the first `n` of them restarted. -/
def restartedTo (n : Nat) (l : List Stand) : List Stand := l.mapIdx fun i r => if i < n then restartedStand r else r

theorem restartedTo_zero (l : List Stand) : restartedTo 0 l = l := by
  refine List.ext_getElem? fun i => ?_
  rw [restartedTo, List.getElem?_mapIdx]
  cases l[i]? with
  | none => rfl
  | some r => exact congrArg some (if_neg (Nat.not_lt_zero i))

theorem restartedTo_length (l : List Stand) : restartedTo l.length l = l.map restartedStand := by
  refine List.ext_getElem? fun i => ?_
  rw [restartedTo, List.getElem?_mapIdx, List.getElem?_map]
  cases found : l[i]? with
  | none => rfl
  | some r =>
    have inside := (List.getElem?_eq_some_iff.mp found).1
    exact congrArg some (if_pos inside)

theorem getElem?_restartedTo (n : Nat) (l : List Stand) : (restartedTo n l)[n]? = l[n]? := by
  rw [restartedTo, List.getElem?_mapIdx]
  cases l[n]? with
  | none => rfl
  | some r => exact congrArg some (if_neg (lt_irrefl n))

theorem modify_restartedTo (n : Nat) (l : List Stand) : (restartedTo n l).modify n restartedStand = restartedTo (n + 1) l := by
  refine List.ext_getElem? fun i => ?_
  rw [List.getElem?_modify, restartedTo, restartedTo, List.getElem?_mapIdx, List.getElem?_mapIdx]
  cases l[i]? with
  | none => simp
  | some r =>
    rcases lt_trichotomy i n with below | rfl | above
    · simp [below, Nat.lt_succ_of_lt below, below.ne']
    · simp
    · simp [above.not_gt, Nat.not_lt.mpr above, above.ne]

/-- The first `n` stands' RESTARTs. -/
def restartedStandsTo (n : Nat) (s : State) : State := ((List.range n).map (· + 1)).foldl (fun s k => spliceRestart k s) s

theorem restartedStandsTo_succ (n : Nat) (s : State) :
    restartedStandsTo (n + 1) s = spliceRestart (n + 1) (restartedStandsTo n s) := by
  rw [restartedStandsTo, List.range_succ, List.map_append, List.foldl_append]
  rfl

/-- The record with the first `n` stands restarted, and nothing sent. -/
def standsSetTo (n : Nat) (s : State) : State := { s with sc := { s.sc with stands := restartedTo n s.sc.stands } }

theorem modStand_standsSetTo (n : Nat) (s : State) : modStand (n + 1) restartedStand (standsSetTo n s) = standsSetTo (n + 1) s := by
  unfold standsSetTo
  rw [← modify_restartedTo]
  rfl

theorem standOf_restartedStandsTo {n : Nat} {s : State} (sends : Sends (standsSetTo n s) (restartedStandsTo n s)) :
    standOf (restartedStandsTo n s) (n + 1) = s.sc.stands[n]? := by
  have stands := congrArg ScState.stands sends.sc
  exact (congrArg (·[n]?) stands).trans (getElem?_restartedTo n s.sc.stands)

theorem restartedStandsTo_sends {n : Nat} {s : State} (configured : n ≤ s.sc.stands.length) :
    Sends (standsSetTo n s) (restartedStandsTo n s) := by
  induction n with
  | zero =>
    unfold standsSetTo
    rw [restartedTo_zero]
    exact Sends.refl s
  | succ n ih =>
    have sends := ih (by omega)
    have found := (standOf_restartedStandsTo sends).trans (List.getElem?_eq_getElem configured)
    rw [restartedStandsTo_succ, ← modStand_standsSetTo]
    exact (sends.modStand (n + 1) restartedStand).trans (spliceRestart_sends found)

theorem length_flatMap_abortOf (l : List Stand) : (l.flatMap abortOf).length ≤ l.length := by
  induction l with
  | nil => exact Nat.le_refl 0
  | cons r t ih =>
    have one : (abortOf r).length ≤ 1 := by
      unfold abortOf
      split <;> simp
    rw [List.flatMap_cons, List.length_append, List.length_cons]
    omega

theorem restartedStandsTo_placed {n : Nat} {s : State} (configured : n ≤ s.sc.stands.length)
    (room : s.ri.directives.length + n + 1 ≤ 48) :
    Placed ((s.sc.stands.take n).flatMap abortOf) s (restartedStandsTo n s) := by
  induction n with
  | zero => exact Placed.refl s
  | succ n ih =>
    have placed := ih (by omega) (by omega)
    have sends := restartedStandsTo_sends (n := n) (s := s) (by omega)
    have found := (standOf_restartedStandsTo sends).trans (List.getElem?_eq_getElem configured)
    have space : (restartedStandsTo n s).ri.directives.length + 2 ≤ 48 := by
      have few := length_flatMap_abortOf (s.sc.stands.take n)
      have taken := List.length_take_le n s.sc.stands
      rw [placed.directives, List.length_append]
      omega
    rw [restartedStandsTo_succ, List.take_succ_eq_append_getElem configured, List.flatMap_append, List.flatMap_singleton]
    exact placed.trans (spliceRestart_placed found space)

theorem splicesRestart_sends (s : State) :
    Sends { s with sc := { s.sc with stands := s.sc.stands.map restartedStand } } (splicesRestart s) := by
  rw [← restartedTo_length]
  exact restartedStandsTo_sends (le_refl _)

theorem splicesRestart_placed {s : State} (room : s.ri.directives.length + s.sc.stands.length + 1 ≤ 48) :
    Placed (s.sc.stands.flatMap abortOf) s (splicesRestart s) := by
  have all := restartedStandsTo_placed (le_refl s.sc.stands.length) room
  rw [List.take_length] at all
  exact all

/-! ## RESTART as a whole (R196) -/

/-- What RESTART leaves, apart from what it sends. -/
def restartedState (s : State) : State :=
  { leaveRunning s with
    os := restartedOs s, kc := { a := restartedKnife s.kc.a, b := restartedKnife s.kc.b }, cs := restartedCs s.cs,
    sc := { s.sc with stands := s.sc.stands.map restartedStand },
    zr := { s.zr with zones := s.zr.zones.map restartedZone },
    ts := { s.ts with zones := s.ts.zones.map fun t => { clearTrip with latched := t.latched, lastReading := t.lastReading } },
    me := { (leaveRunning s).me with triggers := List.replicate Config.triggerCapacity none, feedStarts := [] } }

/-- The state with the orders after RESTART, and nothing sent. -/
def ordersSet (s : State) : State := { leaveRunning s with os := restartedOs s }

/-- The state in which RESTART comes to knife station A. -/
def beforeKnifeA (s : State) : State := ordersRestart (leaveRunning s)

/-- The state in which RESTART comes to knife station B. -/
def beforeKnifeB (s : State) : State := knifeRestart .a (beforeKnifeA s)

/-- The state in which RESTART comes to the stands. -/
def beforeStands (s : State) : State := cutsRestart (knifeRestart .b (beforeKnifeB s))

theorem beforeKnifeA_sends (s : State) : Sends (ordersSet s) (beforeKnifeA s) := (ordersRestart_sends (leaveRunning s)).1

theorem beforeKnifeB_sends (s : State) : Sends (modKnife .a restartedKnife (ordersSet s)) (beforeKnifeB s) :=
  ((beforeKnifeA_sends s).modKnife .a restartedKnife).trans (knifeRestart_sends .a _)

theorem beforeStands_sends (s : State) : Sends
    { ordersSet s with kc := { a := restartedKnife s.kc.a, b := restartedKnife s.kc.b }, cs := restartedCs s.cs }
    (beforeStands s) :=
  have knives := ((beforeKnifeB_sends s).modKnife .b restartedKnife).trans (knifeRestart_sends .b _)
  (knives.setCs restartedCs).trans (cutsRestart_sends _)

theorem restartEffects_sends (s : State) : Sends (restartedState s) (restartEffects s) := by
  have stands := ((beforeStands_sends s).setSc fun sc => { sc with stands := sc.stands.map restartedStand }).trans
    (splicesRestart_sends _)
  have zones := stands.setZr fun zr => { zr with zones := zr.zones.map restartedZone }
  have trips := zones.setTs fun ts =>
    { ts with zones := ts.zones.map fun t => { clearTrip with latched := t.latched, lastReading := t.lastReading } }
  exact trips.setMe fun me => { me with triggers := List.replicate Config.triggerCapacity none, feedStarts := [] }

theorem length_liftOf (s : State) (k : KnifeId) : (liftOf s k).length ≤ 1 := by
  unfold liftOf
  split <;> simp

theorem Sends.stations {s t : State} (h : Sends s t) : t.ri.stations = s.ri.stations := by
  rw [h.ri]

/-- The addresses are those of the station table, which RESTART keeps. -/
theorem Sends.liftOf {s t : State} (h : Sends s t) (k : KnifeId) : Machine.liftOf t k = Machine.liftOf s k := by
  have address : roleAddress t (knifeRole k) = roleAddress s (knifeRole k) := by
    rw [roleAddress, roleAddress, stationIn, stationIn, h.stations]
  have knife : knifeOf t k = knifeOf s k := by
    cases k
    · exact congrArg KcState.a h.kc
    · exact congrArg KcState.b h.kc
  rw [Machine.liftOf, Machine.liftOf, address, knife]

theorem beforeKnifeA_placed (s : State) : Placed [] (ordersSet s) (beforeKnifeA s) := (ordersRestart_sends (leaveRunning s)).2

theorem beforeKnifeB_placed (s : State) : Placed (liftOf s .a) (ordersSet s) (beforeKnifeB s) := by
  have orders := beforeKnifeA_placed s
  have room : (beforeKnifeA s).ri.directives.length + 2 ≤ 48 := by
    rw [orders.directives]
    exact Nat.le_of_ble_eq_true rfl
  have lift : liftOf (beforeKnifeA s) .a = liftOf s .a := (beforeKnifeA_sends s).liftOf .a
  exact lift ▸ orders.trans (knifeRestart_placed room)

theorem beforeStands_placed (s : State) : Placed (liftOf s .a ++ liftOf s .b) (ordersSet s) (beforeStands s) := by
  have knifeA := beforeKnifeB_placed s
  have room : (beforeKnifeB s).ri.directives.length + 2 ≤ 48 := by
    rw [knifeA.directives]
    exact Nat.le_trans (Nat.add_le_add_right (length_liftOf s .a) 2) (Nat.le_of_ble_eq_true rfl)
  have lift : liftOf (beforeKnifeB s) .b = liftOf s .b := (beforeKnifeB_sends s).liftOf .b
  have knives : Placed (liftOf s .a ++ liftOf s .b) (ordersSet s) (knifeRestart .b (beforeKnifeB s)) :=
    lift ▸ knifeA.trans (knifeRestart_placed room)
  exact List.append_nil (liftOf s .a ++ liftOf s .b) ▸ knives.trans (cutsRestart_placed _)

/-- Two knife stations and five stands send too few directives for one to be discarded. -/
theorem restartEffects_placed {s : State} (few : s.sc.stands.length ≤ 5) :
    Placed (liftOf s .a ++ liftOf s .b ++ s.sc.stands.flatMap abortOf) (restartedState s) (restartEffects s) := by
  have cuts := beforeStands_placed s
  have stands : (beforeStands s).sc.stands = s.sc.stands := congrArg ScState.stands (beforeStands_sends s).sc
  have room : (beforeStands s).ri.directives.length + (beforeStands s).sc.stands.length + 1 ≤ 48 := by
    have waiting : (ordersSet s).ri.directives = [] := rfl
    have oneA := length_liftOf s .a
    have oneB := length_liftOf s .b
    rw [cuts.directives, stands, waiting, List.nil_append, List.length_append]
    omega
  have all := cuts.trans (splicesRestart_placed room)
  rw [stands] at all
  exact ⟨all.directives, all.stop, all.holdCause⟩

theorem flatMap_abortOf (l : List Stand) : l.flatMap abortOf =
    (l.filter fun r => r.splice.state == .accelerating || r.splice.state == .matched).map
      fun r => ⟨r.address.getD 0, .abort⟩ := by
  induction l with
  | nil => rfl
  | cons r t ih =>
    rw [List.flatMap_cons, List.filter_cons, ih, abortOf]
    by_cases running : r.splice.state = .accelerating ∨ r.splice.state = .matched
    · rw [if_pos running, if_pos (by simpa using running)]
      rfl
    · rw [if_neg running, if_neg (by simpa using running)]
      rfl

theorem liftOf_both (s : State) : liftOf s .a ++ liftOf s .b =
    ([KnifeId.a, .b].filter fun k => (knifeOf s k).state == .engaged).map
      fun k => ⟨roleAddress s (knifeRole k), .lift .atOnce⟩ := by
  simp only [liftOf, List.filter_cons, List.filter_nil, beq_iff_eq]
  split <;> split <;> rfl

theorem not_isAbandoned (o : Order) : (!isAbandoned o) = (o.feed == .queued || o.feed == .next) := by
  unfold isAbandoned
  cases o.feed <;> rfl

theorem restartedOs_orders (s : State) : (restartedOs s).orders =
    (s.os.orders.filter fun o => o.feed == .queued || o.feed == .next).map keptOrder := by
  simp only [restartedOs, not_isAbandoned]

/-- Settles O55: what each block leaves is read off `restartedState`, and what it sends off `restartEffects_placed`. -/
theorem restartLeavesRunning : Obligations.RestartLeavesRunning := by
  have answer : ∀ {h s t reply}, Reaches h .supervisor s → ruleRestart s = (t, reply) →
      exec (.restart h (.fields ())) s = .next (answered h .supervisor 6 reply t) := fun reaches rule =>
    congrArg Host.Outcome.next (receiveBody_of_supervisor reaches (b := .restart) rule)
  refine ⟨fun h s reaches => ⟨fun configuring => ?_, fun running => ?_⟩, fun s => ?_, fun s => ?_⟩
  · exact answer reaches (if_neg (by simp [configuring]))
  · have sends := restartEffects_sends s
    refine ⟨restartEffects s, answer reaches (if_pos running), rfl, congrArg MeState.running sends.me,
      congrArg SmState.marks sends.sm,
      ?_, sends.mode rfl, ?_⟩
    · have orders : (restartEffects s).os.orders = (restartedOs s).orders := by rw [sends.os]; rfl
      rw [orders, restartedOs_orders, List.map_map]
      rfl
    refine ⟨by rw [sends.os]; rfl, by rw [sends.os]; rfl, by rw [sends.os]; rfl, by rw [sends.pt]; rfl, by rw [sends.pt]; rfl,
      by rw [sends.pt]; rfl, by rw [sends.pt]; rfl, by rw [sends.pt]; rfl, by rw [sends.pt]; rfl, by rw [sends.pt]; rfl,
      (congrArg SmState.spans sends.sm :), (congrArg ZrState.grades sends.zr :), (congrArg ZrState.profiles sends.zr :),
      sends.stations,
      congrArg MeState.triggers sends.me, (congrArg SmState.nextId sends.sm :), by rw [sends.pt]; rfl, ?_, ?_, fun few => ?_⟩
    · rw [sends.sc]
      exact List.map_map
    · rw [sends.ts]
      exact List.map_map
    · have placed := restartEffects_placed few
      refine ⟨placed.stop, placed.holdCause, placed.directives.trans ?_⟩
      rw [liftOf_both, flatMap_abortOf]
      rfl
  · have sends := restartEffects_sends s
    have orders : (restartEffects s).os.orders = (restartedOs s).orders := by rw [sends.os]; rfl
    exact ⟨sends.kc, sends.cs, congrArg ScState.stands sends.sc, congrArg ZrState.zones sends.zr, sends.ts,
      orders.trans (restartedOs_orders s), sends.pt, sends.sm, sends.me, sends.ri, sends.freeIndex⟩
  · intro left fed told
    refine ⟨rfl, fun k t => knifeRestart_eq k t, fun t => ?_, fun k r t found => spliceRestart_eq found, fun t => rfl, rfl⟩
    intro abandon
    have same : ∀ x u, abandonStack x u = abandon x u := fun x u => by cases x <;> rfl
    rw [cutsRestart_eq, same, same]

end Sys2Proof.Machine
end

section
/-! PROOFS. WRITE of the line geometry (R4, R6, R102). -/

namespace Sys2Proof.Machine

/-! ## The record's groups (Table 1-1) -/

theorem group_iff {mask : Byte} {i : Nat} {fits : Bool} {p : Prop} (range : fits = true ↔ p) :
    (!masked mask i || fits) = true ↔ (masked mask i = true → p) := by
  cases masked mask i <;> simp [range]

theorem geometryInRange_iff (mask : Byte) (g : Geometry) : geometryInRange mask g = true ↔
    (masked mask 0 = true → g.knifeAOffset ≤ 250000 ∧ g.knifeBOffset ≤ 250000 ∧ g.cutoffOffset ≤ 250000 ∧
      g.gateOffset ≤ 250000 ∧ 5000 ≤ g.dPre ∧ g.dPre ≤ 60000) ∧
    (masked mask 1 = true → 20 ≤ g.maxDelta ∧ g.maxDelta ≤ 250 ∧ 5 ≤ g.tallyInterval ∧ g.tallyInterval ≤ 50) ∧
    (masked mask 2 = true → 100 ≤ g.warnLimit ∧ g.warnLimit ≤ 20000 ∧ g.mergeGap ≤ 5000) ∧
    (masked mask 3 = true → g.knifeLead ≤ 80000 ∧ g.cutoffLead ≤ 80000 ∧ g.gateDwell ≤ 3000 ∧ g.shortTolerance ≤ 50 ∧
      g.deckCapacity ≤ 100 ∧ 1 ≤ g.transferTimeout ∧ g.transferTimeout ≤ 60 ∧ 60 ≤ g.minLane ∧ g.minLane ≤ 400 ∧
      g.minTrim ≤ 50) := by
  rw [geometryInRange, Bool.and_eq_true, Bool.and_eq_true, Bool.and_eq_true, and_assoc, and_assoc]
  refine and_congr (group_iff ?_) (and_congr (group_iff ?_) (and_congr (group_iff ?_) (group_iff ?_))) <;>
    simp only [Bool.and_eq_true, inRange_iff, Nat.zero_le, true_and, and_assoc]

theorem writeGeometry_eq (mask : Byte) (v g : Geometry) :
    let pick := fun (i new old : Nat) => if masked mask i = true then new else old
    writeGeometry mask v g =
      { knifeAOffset := pick 0 v.knifeAOffset g.knifeAOffset, knifeBOffset := pick 0 v.knifeBOffset g.knifeBOffset,
        cutoffOffset := pick 0 v.cutoffOffset g.cutoffOffset, gateOffset := pick 0 v.gateOffset g.gateOffset,
        dPre := pick 0 v.dPre g.dPre,
        maxDelta := pick 1 v.maxDelta g.maxDelta, tallyInterval := pick 1 v.tallyInterval g.tallyInterval,
        warnLimit := pick 2 v.warnLimit g.warnLimit, mergeGap := pick 2 v.mergeGap g.mergeGap,
        knifeLead := pick 3 v.knifeLead g.knifeLead, cutoffLead := pick 3 v.cutoffLead g.cutoffLead,
        gateDwell := pick 3 v.gateDwell g.gateDwell, shortTolerance := pick 3 v.shortTolerance g.shortTolerance,
        deckCapacity := pick 3 v.deckCapacity g.deckCapacity, transferTimeout := pick 3 v.transferTimeout g.transferTimeout,
        minLane := pick 3 v.minLane g.minLane, minTrim := pick 3 v.minTrim g.minTrim } := by
  intro pick
  simp only [pick, writeGeometry]
  split_ifs <;> rfl

theorem geometryLeadsFit_iff (g : Geometry) : geometryLeadsFit g = true ↔
    g.knifeLead ≤ g.knifeAOffset + g.dPre ∧ g.cutoffLead ≤ g.cutoffOffset + g.dPre := by
  rw [geometryLeadsFit, Bool.and_eq_true, decide_eq_true_iff, decide_eq_true_iff]

/-! ## The checks (R4, R6, R102) -/

/-- The groups that RUNNING keeps, and the leads it checks, stand in the way of nothing. -/
def geometryRuns (s : State) (mask : Byte) (g : Geometry) : Prop :=
  s.me.running = true → masked mask 0 = false ∧ masked mask 1 = false ∧
    (masked mask 3 = true → geometryLeadsFit (writeGeometry mask g s.pt.geometry) = true)

theorem deckCuts_of_deck {s : State} {d : Stack} (deck : s.cs.stacker.deck = some d) : deckCuts s = d.cuts := by
  rw [deckCuts, deck]
  rfl

theorem deckCuts_le_iff (s : State) (n : Nat) : deckCuts s ≤ n ↔ ∀ d, s.cs.stacker.deck = some d → d.cuts ≤ n := by
  unfold deckCuts
  cases s.cs.stacker.deck <;> simp

section
variable {s : State} {mask : Byte} {g : Geometry}

theorem geometryRefusal_of_range (range : geometryInRange mask g = false) :
    geometryRefusal s mask g = some (.refused .parameter .fieldRange .none) :=
  (firstReply_cons ..).trans (if_neg (by simp [range]))

theorem geometryRefusal_of_state (range : geometryInRange mask g = true) (running : s.me.running = true)
    (kept : masked mask 0 = true ∨ masked mask 1 = true) :
    geometryRefusal s mask g = some (.refused .wrongState .none .none) := by
  rw [geometryRefusal, firstReply_cons, if_pos range, firstReply_cons]
  exact if_neg (by simpa [running, or_iff_not_imp_left] using kept)

theorem geometryRefusal_of_leads (range : geometryInRange mask g = true) (running : s.me.running = true)
    (place : masked mask 0 = false) (tally : masked mask 1 = false) (dry : masked mask 3 = true)
    (long : geometryLeadsFit (writeGeometry mask g s.pt.geometry) = false) :
    geometryRefusal s mask g = some (.refused .parameter .leadLong .none) := by
  rw [geometryRefusal, firstReply_cons, if_pos range, firstReply_cons, if_pos (by simp [place, tally]), firstReply_cons]
  exact if_neg (by simp [running, dry, long])

/-- A geometry that RUNNING allows is held against the deck stack (R102). -/
theorem geometryRefusal_of_runs (range : geometryInRange mask g = true) (runs : geometryRuns s mask g) :
    geometryRefusal s mask g =
      if masked mask 3 = true → deckCuts s ≤ g.deckCapacity then none else some (.refused .inUse .none .none) := by
  have groups : (!(s.me.running && (masked mask 0 || masked mask 1))) = true := by
    cases running : s.me.running with
    | false => rfl
    | true =>
      obtain ⟨place, tally, _⟩ := runs running
      simp [place, tally]
  have leads : (!(s.me.running && masked mask 3) || geometryLeadsFit (writeGeometry mask g s.pt.geometry)) = true := by
    cases running : s.me.running with
    | false => rfl
    | true =>
      obtain ⟨_, _, fit⟩ := runs running
      cases dry : masked mask 3 with
      | false => rfl
      | true => exact fit dry
  rw [geometryRefusal, firstReply_cons, if_pos range, firstReply_cons, if_pos groups, firstReply_cons, if_pos leads,
    firstReply_cons]
  exact if_congr (group_iff decide_eq_true_iff) rfl rfl

end

/-- Settles O48: the checks of `geometryRefusal` in their order, and the update they stand before. -/
theorem geometryWrite : Obligations.GeometryWrite := by
  have answer : ∀ {h src g s t reply}, Reaches h src s → ruleWriteGeometry h.mask g s = (t, reply) →
      exec (.writeLineGeometry h (.fields g)) s = .next (answered h src 3 reply t) := fun {_ _ g _ _ _} reaches rule =>
    congrArg Host.Outcome.next (receiveBody_of_rule reaches (b := .writeLineGeometry g) rfl rule)
  refine ⟨fun h src g s reaches named within => ?_, fun h src g s reaches => ⟨fun zero => ?_, fun beyond => ?_⟩, masked_iff,
    geometryInRange_iff, writeGeometry_eq, geometryLeadsFit_iff⟩
  · have checked : ∀ {t reply}, refuseOr (geometryRefusal s h.mask g) (applyGeometry h.mask g) s = (t, reply) →
        exec (.writeLineGeometry h (.fields g)) s = .next (answered h src 3 reply t) := fun rule =>
      answer reaches ((groupsThen_of_named (n := 4) named within ..).trans rule)
    intro new
    refine ⟨fun range => ?_, fun range running kept => ?_, fun range running place tally dry long => ?_,
      fun d range runs dry deck full => ?_, fun range runs room => ?_⟩
    · exact checked (refuseOr_of_some (geometryRefusal_of_range range) ..)
    · exact checked (refuseOr_of_some (geometryRefusal_of_state range running kept) ..)
    · exact checked (refuseOr_of_some (geometryRefusal_of_leads range running place tally dry long) ..)
    · have allowed : geometryRuns s h.mask g := fun running =>
        have ⟨place, tally, fit⟩ := runs running
        ⟨place, tally, fun _ => fit⟩
      have tooMany : ¬(masked h.mask 3 = true → deckCuts s ≤ g.deckCapacity) := fun fits => by
        have := fits dry
        rw [deckCuts_of_deck deck] at this
        omega
      exact checked (refuseOr_of_some ((geometryRefusal_of_runs range allowed).trans (if_neg tooMany)) ..)
    · have fits : masked h.mask 3 = true → deckCuts s ≤ g.deckCapacity := fun dry => (deckCuts_le_iff ..).mpr (room dry)
      exact checked (refuseOr_of_none ((geometryRefusal_of_runs range runs).trans (if_pos fits)) ..)
  · exact answer reaches (groupsThen_of_zero zero ..)
  · exact answer reaches (groupsThen_of_beyond beyond ..)

end Sys2Proof.Machine
end

section
/-! PROOFS. WRITE and LOAD of stand records (R110), zone records (R138) and station table entries (R174). -/

namespace Sys2Proof.Machine

/-! ## Lists that hold nothing twice -/

theorem length_eraseDups_le {α : Type} [BEq α] (l : List α) : l.eraseDups.length ≤ l.length := by
  match l with
  | [] => exact Nat.le_refl 0
  | a :: t =>
    have shorter := List.length_filter_le (fun b => !b == a) t
    have erased := length_eraseDups_le (t.filter fun b => !b == a)
    rw [List.eraseDups_cons, List.length_cons, List.length_cons]
    omega
termination_by l.length
decreasing_by exact Nat.lt_succ_of_le shorter

/-- Erasing what stands before keeps the length exactly where nothing does. -/
theorem length_eraseDups_eq_iff {α : Type} [BEq α] [LawfulBEq α] (l : List α) : l.length = l.eraseDups.length ↔ l.Nodup := by
  induction l with
  | nil => simp
  | cons a t ih =>
    rw [List.eraseDups_cons, List.length_cons, List.length_cons, List.nodup_cons, Nat.add_right_cancel_iff]
    by_cases mem : a ∈ t
    · have shorter : (t.filter fun b => !b == a).length < t.length := List.length_filter_lt_length_iff_exists.mpr ⟨a, mem, by simp⟩
      have erased := length_eraseDups_le (t.filter fun b => !b == a)
      exact ⟨fun same => by omega, fun twice => absurd mem twice.1⟩
    · have kept : (t.filter fun b => !b == a) = t := List.filter_eq_self.mpr fun b inside => by
        simpa using fun same : b = a => mem (same ▸ inside)
      rw [kept, ih]
      exact ⟨fun nodup => ⟨mem, nodup⟩, fun twice => twice.2⟩

theorem noneTwice_iff {α : Type} [BEq α] [LawfulBEq α] (l : List α) : noneTwice l = true ↔ l.Nodup :=
  beq_iff_eq.trans (length_eraseDups_eq_iff l)

/-! ## Checks as a list of refusals -/

theorem firstReply_eq (l : List (Bool × Reply)) :
    firstReply l = (l.map fun x => if x.1 = true then none else some x.2).findSome? id := by
  induction l with
  | nil => rfl
  | cons x t ih =>
    obtain ⟨ok, r⟩ := x
    cases ok
    · rfl
    · exact ih

/-- A check that is met unless `p` refuses where `p` holds. -/
theorem refusal_of_iff {ok : Bool} {p : Prop} [Decidable p] (met : ok = true ↔ ¬p) (r : Reply) :
    (if ok = true then none else some r) = if p then some r else none := by
  by_cases holds : p
  · rw [if_pos holds, if_neg fun passed => met.mp passed holds]
  · rw [if_neg holds, if_pos (met.mpr holds)]

/-! ## Stand records (R110) -/

theorem takeupFits_iff (role : Coded PaperRole) (n : Nat) : takeupFits role n = true ↔
    (role = .named .liner ∧ 1000 ≤ n ∧ n ≤ 1100) ∨ (role = .named .medium ∧ 1100 ≤ n ∧ n ≤ 1700) := by
  cases role with
  | beyond => simp [takeupFits]
  | named p => cases p <;> simp [takeupFits, inRange_iff]

theorem standInRange_iff (mask : Byte) (v : StandFields) : standInRange mask v = true ↔
    (masked mask 0 = true → ((v.role = .named .liner ∧ 1000 ≤ v.takeup ∧ v.takeup ≤ 1100) ∨
      (v.role = .named .medium ∧ 1100 ≤ v.takeup ∧ v.takeup ≤ 1700)) ∧ 1 ≤ v.effOffset ∧ v.effOffset ≤ 250000) ∧
    (masked mask 1 = true → v.spliceLead ≤ 80000 ∧ v.runOut ≤ 500000 ∧ 50 ≤ v.maxSpeed ∧ v.maxSpeed ≤ 500 ∧
      1 ≤ v.accelTimeout ∧ v.accelTimeout ≤ 60 ∧ 1 ≤ v.pasteTimeout ∧ v.pasteTimeout ≤ 10) := by
  rw [standInRange, Bool.and_eq_true]
  refine and_congr (group_iff ?_) (group_iff ?_)
  · rw [Bool.and_eq_true, takeupFits_iff, inRange_iff]
  · simp only [Bool.and_eq_true, inRange_iff, Nat.zero_le, true_and, and_assoc]

section
variable {s : State} {mask : Byte} {k : Nat} {v : StandFields} {r : Stand}

theorem standRefusal_of_missing (missing : standOf s k = none) :
    standRefusal s mask k v = some (.refused .notFound .none .none) := by
  unfold standRefusal
  rw [missing]
  rfl

theorem standRefusal_of_stand (found : standOf s k = some r) : standRefusal s mask k v =
    firstReply
      [(standInRange mask v, outOfRange), (!(s.me.running && masked mask 0), refusal .wrongState),
       (!(s.me.running && masked mask 1) || decide (v.spliceLead ≤ r.effOffset + s.pt.geometry.dPre),
        badParameter .leadLong)] := by
  simp only [standRefusal, found]

theorem standRefusal_of_range (found : standOf s k = some r) (range : standInRange mask v = false) :
    standRefusal s mask k v = some (.refused .parameter .fieldRange .none) := by
  rw [standRefusal_of_stand found, firstReply_cons]
  exact if_neg (by simp [range])

theorem standRefusal_of_state (found : standOf s k = some r) (range : standInRange mask v = true) (running : s.me.running = true)
    (kept : masked mask 0 = true) : standRefusal s mask k v = some (.refused .wrongState .none .none) := by
  rw [standRefusal_of_stand found, firstReply_cons, if_pos range, firstReply_cons]
  exact if_neg (by simp [running, kept])

theorem standRefusal_of_lead (found : standOf s k = some r) (range : standInRange mask v = true) (running : s.me.running = true)
    (place : masked mask 0 = false) (splice : masked mask 1 = true) (long : r.effOffset + s.pt.geometry.dPre < v.spliceLead) :
    standRefusal s mask k v = some (.refused .parameter .leadLong .none) := by
  rw [standRefusal_of_stand found, firstReply_cons, if_pos range, firstReply_cons, if_pos (by simp [place]), firstReply_cons]
  exact if_neg (by simp [running, splice, long])

theorem standRefusal_of_fits (found : standOf s k = some r) (range : standInRange mask v = true)
    (runs : s.me.running = true → masked mask 0 = false ∧
      (masked mask 1 = true → v.spliceLead ≤ r.effOffset + s.pt.geometry.dPre)) : standRefusal s mask k v = none := by
  have place : (!(s.me.running && masked mask 0)) = true := by
    cases running : s.me.running with
    | false => rfl
    | true => simp [(runs running).1]
  have lead : (!(s.me.running && masked mask 1) || decide (v.spliceLead ≤ r.effOffset + s.pt.geometry.dPre)) = true := by
    cases running : s.me.running with
    | false => rfl
    | true => exact (group_iff decide_eq_true_iff).mpr (runs running).2
  rw [standRefusal_of_stand found, firstReply_cons, if_pos range, firstReply_cons, if_pos place, firstReply_cons, if_pos lead]
  rfl

end

/-! ## Zone records (R138) -/

theorem codedNamed_iff {α : Type} (x : Coded α) : codedNamed x = true ↔ ∃ a, x = .named a := by
  cases x <;> simp [codedNamed]

theorem inRangeInt_iff (lo hi n : Int) : inRangeInt lo hi n = true ↔ lo ≤ n ∧ n ≤ hi := by
  rw [inRangeInt, Bool.and_eq_true, decide_eq_true_iff, decide_eq_true_iff]

theorem zoneInRange_iff (mask : Byte) (v : ZoneFields) : zoneInRange mask v = true ↔
    (masked mask 0 = true → (∃ k, v.kind = .named k) ∧ 1 ≤ v.offset ∧ v.offset ≤ 250000 ∧ 1 ≤ v.station ∧ v.station ≤ 62 ∧
      v.channel ≤ 15) ∧
    (masked mask 1 = true → v.rampLead ≤ 80000 ∧ v.profile ≤ 7) ∧
    (masked mask 2 = true → v.standbyDelay ≤ 250 ∧ -32768 ≤ v.standbySetpoint ∧ v.standbySetpoint ≤ 32767) ∧
    (masked mask 3 = true → -32768 ≤ v.bandLow ∧ v.bandLow ≤ 0 ∧ 0 ≤ v.bandHigh ∧ v.bandHigh ≤ 32767 ∧ -32768 ≤ v.cutout ∧
      v.cutout ≤ 32767 ∧ v.hysteresis ≤ 500 ∧ v.foreignAction = false) := by
  rw [zoneInRange, Bool.and_eq_true, Bool.and_eq_true, Bool.and_eq_true, and_assoc, and_assoc]
  refine and_congr (group_iff ?_) (and_congr (group_iff ?_) (and_congr (group_iff ?_) (group_iff ?_))) <;>
    simp only [Bool.and_eq_true, codedNamed_iff, inRange_iff, isSigned16, inRangeInt_iff, Bool.not_eq_true', Nat.zero_le, true_and,
      and_assoc]

/-- The kind of a zone that PLACE leaves (R138). -/
def writtenKind (mask : Byte) (v : ZoneFields) (z : Zone) : ZoneKind :=
  if masked mask 0 = true then
    (match v.kind with
     | .named k => k
     | .beyond _ => z.kind)
  else z.kind

theorem writeZoneFields_eq (mask : Byte) (v : ZoneFields) (z : Zone) : writeZoneFields mask v z = { z with
    placed := masked mask 0 || z.placed, kind := writtenKind mask v z,
    offset := if masked mask 0 = true then v.offset else z.offset,
    station := if masked mask 0 = true then some v.station else z.station,
    channel := if masked mask 0 = true then v.channel else z.channel,
    rampLead := if masked mask 1 = true then v.rampLead else z.rampLead,
    profile := if masked mask 1 = true then v.profile else z.profile,
    standbyDelay := if masked mask 2 = true then v.standbyDelay else z.standbyDelay,
    standbySetpoint := if masked mask 2 = true then v.standbySetpoint else z.standbySetpoint,
    bandLow := if masked mask 3 = true then v.bandLow else z.bandLow,
    bandHigh := if masked mask 3 = true then v.bandHigh else z.bandHigh,
    cutout := if masked mask 3 = true then v.cutout else z.cutout,
    hysteresis := if masked mask 3 = true then v.hysteresis else z.hysteresis,
    lowActions := if masked mask 3 = true then v.lowActions else z.lowActions,
    highActions := if masked mask 3 = true then v.highActions else z.highActions,
    cutoutActions := if masked mask 3 = true then v.cutoutActions else z.cutoutActions } := by
  unfold writeZoneFields writtenKind
  cases masked mask 0 <;> cases masked mask 1 <;> cases masked mask 2 <;> cases masked mask 3 <;> rfl

theorem readingSourcesUnique_iff (zs : List Zone) : readingSourcesUnique zs = true ↔
    ((zs.filter (·.placed)).map fun z => (z.station, z.channel)).Nodup := beq_iff_eq.trans (length_eraseDups_eq_iff _)

theorem zoneRefusal_eq (s : State) (mask : Byte) (n : Nat) (v : ZoneFields) : zoneRefusal s mask n v = ([
    if n < 16 ∧ zoneInRange mask v = true then none else some (.refused .parameter .fieldRange .none),
    if s.me.running = true ∧ masked mask 0 = true then some (.refused .wrongState .none .none) else none,
    if s.me.running = true ∧ masked mask 1 = true ∧ zoneOffset s n + s.pt.geometry.dPre < v.rampLead
      then some (.refused .parameter .leadLong .none) else none] : List (Option Reply)).findSome? id := by
  have range : (decide (n < Config.zoneCapacity) && zoneInRange mask v) = true ↔ n < 16 ∧ zoneInRange mask v = true := by
    rw [Bool.and_eq_true, decide_eq_true_iff, Config.zoneCapacity]
  have place : (!(s.me.running && masked mask 0)) = true ↔ ¬(s.me.running = true ∧ masked mask 0 = true) := by
    rw [Bool.not_eq_true', ← Bool.not_eq_true, Bool.and_eq_true]
  have lead : (!(s.me.running && masked mask 1) || decide (v.rampLead ≤ zoneOffset s n + s.pt.geometry.dPre)) = true ↔
      ¬(s.me.running = true ∧ masked mask 1 = true ∧ zoneOffset s n + s.pt.geometry.dPre < v.rampLead) := by
    simp only [Bool.or_eq_true, Bool.not_eq_true', ← Bool.not_eq_true, Bool.and_eq_true, decide_eq_true_iff, ← not_lt]
    tauto
  rw [zoneRefusal, firstReply_eq]
  exact congrArg (List.findSome? id) (congrArg₂ List.cons (if_congr range rfl rfl)
    (congrArg₂ List.cons (refusal_of_iff place _) (congrArg₂ List.cons (refusal_of_iff lead _) rfl)))

theorem zonesRefusal_of_some {s : State} {mask : Byte} {es : List (Nat × ZoneFields)} {x : Reply}
    (failed : (es.findSome? fun e => zoneRefusal s mask e.1 e.2) = some x) : zonesRefusal s mask es = some x := by
  unfold zonesRefusal firstRefused
  rw [failed]

theorem zonesRefusal_of_none {s : State} {mask : Byte} {es : List (Nat × ZoneFields)}
    (passed : (es.findSome? fun e => zoneRefusal s mask e.1 e.2) = none) : zonesRefusal s mask es =
      if masked mask 0 = true ∧
          ¬(((es.foldl (fun t e => setZone mask e.1 e.2 t) s).zr.zones.filter (·.placed)).map
            fun z => (z.station, z.channel)).Nodup
        then some (.refused .duplicate .none .none) else none := by
  unfold zonesRefusal firstRefused
  rw [passed]
  refine if_congr ?_ rfl rfl
  rw [Bool.and_eq_true, Bool.not_eq_true', ← Bool.not_eq_true, readingSourcesUnique_iff]

/-! ## Station table entries (R174) -/

theorem roleInRange_iff (r : Coded Role) : roleInRange r = true ↔
    (∃ k, r = .named (.stand k) ∧ 1 ≤ k ∧ k ≤ 5) ∨ (∃ x, r = .named x ∧ ∀ k, x ≠ .stand k) := by
  cases r with
  | beyond => simp [roleInRange]
  | named x => cases x <;> simp [roleInRange, inRange_iff]

theorem stationInRange_iff (mask : Byte) (v : StationForm) : stationInRange mask v = true ↔
    ∀ a r w, v = .fields a r w → masked mask 0 = true → 1 ≤ a ∧ a ≤ 62 ∧
      ((∃ k, r = .named (.stand k) ∧ 1 ≤ k ∧ k ≤ 5) ∨ (∃ x, r = .named x ∧ ∀ k, x ≠ .stand k)) := by
  cases v with
  | empty => exact ⟨fun _ _ _ _ same => (nomatch same), fun _ => rfl⟩
  | fields a r w =>
    have range : stationInRange mask (.fields a r w) = true ↔ (masked mask 0 = true → 1 ≤ a ∧ a ≤ 62 ∧
        ((∃ k, r = .named (.stand k) ∧ 1 ≤ k ∧ k ≤ 5) ∨ (∃ x, r = .named x ∧ ∀ k, x ≠ .stand k))) :=
      group_iff (by rw [Bool.and_eq_true, inRange_iff, roleInRange_iff, and_assoc])
    rw [range]
    exact ⟨fun all _ _ _ same => by cases same; exact all, fun all => all a r w rfl⟩

theorem writesIdentity_iff (mask : Byte) (v : StationForm) : writesIdentity mask v = true ↔ v = .empty ∨ masked mask 0 = true := by
  cases v <;> simp [writesIdentity]

theorem stationRefusal_eq (s : State) (mask : Byte) (i : Nat) (v : StationForm) : stationRefusal s mask i v = ([
    if i < 32 ∧ stationInRange mask v = true then none else some (.refused .parameter .fieldRange .none),
    if s.me.running = true ∧ writesIdentity mask v = true then some (.refused .wrongState .none .none) else none,
    if writesIdentity mask v = false ∧ (s.ri.stations[i]?).join = none then some (.refused .notFound .none .none) else none,
    if isOwnAddress s mask v = true then some (.refused .duplicate .none .none) else none] : List (Option Reply)).findSome? id := by
  have range : (decide (i < Config.stationCapacity) && stationInRange mask v) = true ↔ i < 32 ∧ stationInRange mask v = true := by
    rw [Bool.and_eq_true, decide_eq_true_iff, Config.stationCapacity]
  have identity : (!(s.me.running && writesIdentity mask v)) = true ↔
      ¬(s.me.running = true ∧ writesIdentity mask v = true) := by
    rw [Bool.not_eq_true', ← Bool.not_eq_true, Bool.and_eq_true]
  have watched : (!watchesNothing s mask i v) = true ↔
      ¬(writesIdentity mask v = false ∧ (s.ri.stations[i]?).join = none) := by
    rw [watchesNothing, Bool.not_eq_true', ← Bool.not_eq_true, Bool.and_eq_true, Bool.not_eq_true', Option.isNone_iff_eq_none]
  have own : (!isOwnAddress s mask v) = true ↔ ¬isOwnAddress s mask v = true := by
    rw [Bool.not_eq_true', ← Bool.not_eq_true]
  rw [stationRefusal, firstReply_eq]
  exact congrArg (List.findSome? id) (congrArg₂ List.cons (if_congr range rfl rfl)
    (congrArg₂ List.cons (refusal_of_iff identity _) (congrArg₂ List.cons (refusal_of_iff watched _)
      (congrArg₂ List.cons (refusal_of_iff own _) rfl))))

theorem stationsRefusal_of_some {s : State} {mask : Byte} {es : List (Nat × StationForm)} {x : Reply}
    (failed : (es.findSome? fun e => stationRefusal s mask e.1 e.2) = some x) : stationsRefusal s mask es = some x := by
  unfold stationsRefusal firstRefused
  rw [failed]

theorem stationsUnique_iff (es : List (Option Station)) : stationsUnique es = true ↔
    ((es.filterMap id).map (·.address)).Nodup ∧ (((es.filterMap id).map (·.role)).filter fun r => r != .zone).Nodup := by
  rw [stationsUnique, Bool.and_eq_true, noneTwice_iff, noneTwice_iff]

theorem stationsRefusal_of_none {s : State} {mask : Byte} {es : List (Nat × StationForm)}
    (passed : (es.findSome? fun e => stationRefusal s mask e.1 e.2) = none) : stationsRefusal s mask es =
      if (((es.foldl (fun t e => writeStation mask e.1 e.2 t) s).ri.stations.filterMap id).map (·.address)).Nodup ∧
          ((((es.foldl (fun t e => writeStation mask e.1 e.2 t) s).ri.stations.filterMap id).map (·.role)).filter
            fun r => r != .zone).Nodup
        then none else some (.refused .duplicate .none .none) := by
  unfold stationsRefusal firstRefused
  rw [passed]
  exact if_congr (stationsUnique_iff _) rfl rfl

/-! ## LOAD (R192) -/

theorem ruleLoadZone_of_unfit {mask : Byte} {first : Nat} {vs : List ZoneFields}
    (outside : vs.length = 0 ∨ 8 < vs.length ∨ 16 < first + vs.length) (s : State) :
    ruleLoadZone mask first vs s = (s, .refused .parameter .fieldRange .none) := if_pos (not_loadSpanFits outside)

theorem ruleLoadZone_of_fit {mask : Byte} {first : Nat} {vs : List ZoneFields} (low : 1 ≤ vs.length) (high : vs.length ≤ 8)
    (fits : first + vs.length ≤ 16) (s : State) : ruleLoadZone mask first vs s =
      groupsThen mask 4 (refuseOr (zonesRefusal s mask (loadEntries first vs))
        (fun s => (loadEntries first vs).foldl (fun s e => setZone mask e.1 e.2 s) s)) s :=
  if_neg (loadSpanFits_of low high fits)

theorem ruleLoadStation_of_unfit {mask : Byte} {first : Nat} {vs : List StationForm}
    (outside : vs.length = 0 ∨ 8 < vs.length ∨ 32 < first + vs.length) (s : State) :
    ruleLoadStation mask first vs s = (s, .refused .parameter .fieldRange .none) := if_pos (not_loadSpanFits outside)

theorem ruleLoadStation_of_fit {mask : Byte} {first : Nat} {vs : List StationForm} (low : 1 ≤ vs.length) (high : vs.length ≤ 8)
    (fits : first + vs.length ≤ 32) (s : State) : ruleLoadStation mask first vs s =
      groupsThen mask 2 (refuseOr (stationsRefusal s mask (loadEntries first vs))
        (fun s => (loadEntries first vs).foldl (fun s e => writeStation mask e.1 e.2 s) s)) s :=
  if_neg (loadSpanFits_of low high fits)

theorem ruleLoadZone_of_outside {mask : Byte} {first : Nat} {vs : List ZoneFields} (s : State)
    (outside : vs.length = 0 ∨ 8 < vs.length ∨ 16 < first + vs.length ∨ 16 ≤ mask.toNat) :
    ruleLoadZone mask first vs s = (s, .refused .parameter .fieldRange .none) := by
  by_cases fit : 1 ≤ vs.length ∧ vs.length ≤ 8 ∧ first + vs.length ≤ 16
  · obtain ⟨low, high, fits⟩ := fit
    exact (ruleLoadZone_of_fit low high fits s).trans (groupsThen_of_beyond (n := 4) (by omega) ..)
  · exact ruleLoadZone_of_unfit (by omega) s

theorem ruleLoadStation_of_outside {mask : Byte} {first : Nat} {vs : List StationForm} (s : State)
    (outside : vs.length = 0 ∨ 8 < vs.length ∨ 32 < first + vs.length ∨ 4 ≤ mask.toNat) :
    ruleLoadStation mask first vs s = (s, .refused .parameter .fieldRange .none) := by
  by_cases fit : 1 ≤ vs.length ∧ vs.length ≤ 8 ∧ first + vs.length ≤ 32
  · obtain ⟨low, high, fits⟩ := fit
    exact (ruleLoadStation_of_fit low high fits s).trans (groupsThen_of_beyond (n := 2) (by omega) ..)
  · exact ruleLoadStation_of_unfit (by omega) s

theorem ruleLoadZone_of_zero {mask : Byte} (zero : mask = 0) (first : Nat) (vs : List ZoneFields) (s : State) :
    ruleLoadZone mask first vs s = (s, if 1 ≤ vs.length ∧ vs.length ≤ 8 ∧ first + vs.length ≤ 16 then .accepted .none
      else .refused .parameter .fieldRange .none) := by
  by_cases fit : 1 ≤ vs.length ∧ vs.length ≤ 8 ∧ first + vs.length ≤ 16
  · rw [if_pos fit]
    obtain ⟨low, high, fits⟩ := fit
    exact (ruleLoadZone_of_fit low high fits s).trans (groupsThen_of_zero zero ..)
  · rw [if_neg fit]
    exact ruleLoadZone_of_unfit (by omega) s

theorem ruleLoadStation_of_zero {mask : Byte} (zero : mask = 0) (first : Nat) (vs : List StationForm) (s : State) :
    ruleLoadStation mask first vs s = (s, if 1 ≤ vs.length ∧ vs.length ≤ 8 ∧ first + vs.length ≤ 32 then .accepted .none
      else .refused .parameter .fieldRange .none) := by
  by_cases fit : 1 ≤ vs.length ∧ vs.length ≤ 8 ∧ first + vs.length ≤ 32
  · rw [if_pos fit]
    obtain ⟨low, high, fits⟩ := fit
    exact (ruleLoadStation_of_fit low high fits s).trans (groupsThen_of_zero zero ..)
  · rw [if_neg fit]
    exact ruleLoadStation_of_unfit (by omega) s

/-! ## The answers -/

section
variable {h : ReqHeader} {src : MgmtSource} {s t : State} {reply : Reply}

theorem exec_writeStand (reaches : Reaches h src s) {k : Nat} {v : StandFields}
    (rule : ruleWriteStand h.mask k v s = (t, reply)) :
    exec (.writeStand h (.fields (k, v))) s = .next (answered h src 3 reply t) :=
  congrArg Host.Outcome.next (receiveBody_of_rule reaches (b := .writeStand k v) rfl rule)

theorem exec_writeZone (reaches : Reaches h src s) {n : Nat} {v : ZoneFields}
    (rule : ruleWriteZone h.mask n v s = (t, reply)) :
    exec (.writeZone h (.fields (n, v))) s = .next (answered h src 3 reply t) :=
  congrArg Host.Outcome.next (receiveBody_of_rule reaches (b := .writeZone n v) rfl rule)

theorem exec_writeStation (reaches : Reaches h src s) {i : Nat} {v : StationForm}
    (rule : ruleWriteStation h.mask i v s = (t, reply)) :
    exec (.writeStation h (.fields (i, v))) s = .next (answered h src 3 reply t) :=
  congrArg Host.Outcome.next (receiveBody_of_rule reaches (b := .writeStation i v) rfl rule)

theorem exec_loadZone (reaches : Reaches h src s) {n : Nat} {vs : List ZoneFields}
    (rule : ruleLoadZone h.mask n vs s = (t, reply)) :
    exec (.loadZone h (.fields (n, vs))) s = .next (answered h src 4 reply t) :=
  congrArg Host.Outcome.next (receiveBody_of_rule reaches (b := .loadZone n vs) rfl rule)

theorem exec_loadStation (reaches : Reaches h src s) {i : Nat} {vs : List StationForm}
    (rule : ruleLoadStation h.mask i vs s = (t, reply)) :
    exec (.loadStation h (.fields (i, vs))) s = .next (answered h src 4 reply t) :=
  congrArg Host.Outcome.next (receiveBody_of_rule reaches (b := .loadStation i vs) rfl rule)

end

/-- Settles O50: one table after the other, the group mask, the checks and the update; then what each check and update is. -/
theorem standZoneAndStationWrites : Obligations.StandZoneAndStationWrites := by
  refine ⟨fun h src s reaches named => ⟨fun k v within missing => ?_, fun k v beyond => ?_, fun k v r within found => ?_,
      fun n v within passed => ?_, fun n v x within failed => ?_, fun n v beyond => ?_, fun n vs => ?_,
      fun i v within passed => ?_, fun i v x within failed => ?_, fun i v beyond => ?_, fun i vs => ?_⟩,
    fun mask es s => ?_, fun mask es s => ?_, standInRange_iff, zoneInRange_iff, stationInRange_iff,
    fun h src i s reaches zero => ⟨fun v => ?_, fun v => ?_, fun v => ?_, fun vs => ?_, fun vs => ?_⟩,
    fun mask v r => ?_, fun mask v z => ?_, fun mask n v s => ?_, fun mask address role watch old => ⟨rfl, fun writes => ?_,
      fun watches => ?_⟩, writesIdentity_iff, fun mask i v s => rfl, fun i s => rfl⟩
  · exact exec_writeStand reaches ((groupsThen_of_named (n := 2) named within ..).trans
      (refuseOr_of_some (standRefusal_of_missing missing) ..))
  · exact exec_writeStand reaches (groupsThen_of_beyond (n := 2) beyond ..)
  · have checked : ∀ {t reply}, refuseOr (standRefusal s h.mask k v) (modStand k (writeStandFields h.mask v)) s = (t, reply) →
        exec (.writeStand h (.fields (k, v))) s = .next (answered h src 3 reply t) := fun rule =>
      exec_writeStand reaches ((groupsThen_of_named (n := 2) named within ..).trans rule)
    refine ⟨fun range => ?_, fun range running kept => ?_, fun range running place splice long => ?_, fun range runs => ?_⟩
    · exact checked (refuseOr_of_some (standRefusal_of_range found range) ..)
    · exact checked (refuseOr_of_some (standRefusal_of_state found range running kept) ..)
    · exact checked (refuseOr_of_some (standRefusal_of_lead found range running place splice long) ..)
    · exact checked (refuseOr_of_none (standRefusal_of_fits found range runs) ..)
  · exact exec_writeZone reaches ((groupsThen_of_named (n := 4) named within ..).trans (refuseOr_of_none passed ..))
  · exact exec_writeZone reaches ((groupsThen_of_named (n := 4) named within ..).trans (refuseOr_of_some failed ..))
  · exact exec_writeZone reaches (groupsThen_of_beyond (n := 4) beyond ..)
  · intro es
    refine ⟨fun outside => exec_loadZone reaches (ruleLoadZone_of_outside s outside), fun low high fits within =>
      ⟨fun x failed => exec_loadZone reaches ?_, fun passed => exec_loadZone reaches ?_⟩⟩
    · exact (ruleLoadZone_of_fit low high fits s).trans
        ((groupsThen_of_named (n := 4) named within ..).trans (refuseOr_of_some failed ..))
    · exact (ruleLoadZone_of_fit low high fits s).trans
        ((groupsThen_of_named (n := 4) named within ..).trans (refuseOr_of_none passed ..))
  · exact exec_writeStation reaches ((groupsThen_of_named (n := 2) named within ..).trans (refuseOr_of_none passed ..))
  · exact exec_writeStation reaches ((groupsThen_of_named (n := 2) named within ..).trans (refuseOr_of_some failed ..))
  · exact exec_writeStation reaches (groupsThen_of_beyond (n := 2) beyond ..)
  · intro es
    refine ⟨fun outside => exec_loadStation reaches (ruleLoadStation_of_outside s outside), fun low high fits within =>
      ⟨fun x failed => exec_loadStation reaches ?_, fun passed => exec_loadStation reaches ?_⟩⟩
    · exact (ruleLoadStation_of_fit low high fits s).trans
        ((groupsThen_of_named (n := 2) named within ..).trans (refuseOr_of_some failed ..))
    · exact (ruleLoadStation_of_fit low high fits s).trans
        ((groupsThen_of_named (n := 2) named within ..).trans (refuseOr_of_none passed ..))
  · intro bad failing after sources
    have checks : (es.findSome? fun e => zoneRefusal s mask e.1 e.2) = failing :=
      findSome?_congr_mem fun e _ => zoneRefusal_eq s mask e.1 e.2
    clear_value failing
    cases failing with
    | some x => exact zonesRefusal_of_some checks
    | none => exact zonesRefusal_of_none checks
  · intro identity own failing after
    have identities : ∀ v, writesIdentity mask v = identity v := fun v => by cases v <;> rfl
    have owns : ∀ v, isOwnAddress s mask v = own v := fun v => by cases v <;> rfl
    have checks : (es.findSome? fun e => stationRefusal s mask e.1 e.2) = failing :=
      findSome?_congr_mem fun e _ => by rw [stationRefusal_eq, identities, owns]
    clear_value failing
    cases failing with
    | some x => exact stationsRefusal_of_some checks
    | none => exact stationsRefusal_of_none checks
  · exact exec_writeStand reaches (groupsThen_of_zero zero ..)
  · exact exec_writeZone reaches (groupsThen_of_zero zero ..)
  · exact exec_writeStation reaches (groupsThen_of_zero zero ..)
  · exact exec_loadZone reaches (ruleLoadZone_of_zero zero i vs s)
  · exact exec_loadStation reaches (ruleLoadStation_of_zero zero i vs s)
  · intro pick
    simp only [pick, writeStandFields]
    cases masked mask 0 <;> cases masked mask 1 <;> cases v.role <;> rfl
  · intro pick value actions
    refine (writeZoneFields_eq mask v z).trans ?_
    simp only [pick, value, actions, writtenKind]
    cases masked mask 0 <;> cases v.kind <;> rfl
  · exact if_congr (by rw [Bool.and_eq_true, beq_iff_eq]) rfl rfl
  · exact if_pos writes
  · exact if_neg (by simp [watches])

end Sys2Proof.Machine
end

section
/-! PROOFS. IDENTIFY (R197) and READ (R190): the answer of every item of Table 10-4. -/

namespace Sys2Proof.Machine

/-! ## What a read changes -/

/-- A read of any item but the fault item draws at most one free value. -/
theorem readItem_state {x : Item} (notFault : x ≠ .fault) (i : Nat) (s : State) :
    ∃ free, (readItem x i s).1 = { s with freeIndex := free } := by
  have drawn : ∀ timer : Option Nat, ∃ free, (timeLeftOf timer s).1 = { s with freeIndex := free } := fun timer => by
    cases timer <;> exact ⟨_, rfl⟩
  have looked : ∀ (r : Reason) (v : Option ItemValue), ∃ free, (readOr r v s).1 = { s with freeIndex := free } := fun r v => by
    cases v <;> exact ⟨_, rfl⟩
  have ranged : ∀ (out : Prop) [Decidable out] (a b : Reply),
      ∃ free, (if out then (s, a) else (s, b)).1 = { s with freeIndex := free } := fun out _ a b => by
    split <;> exact ⟨_, rfl⟩
  cases x with
  | fault => exact absurd rfl notFault
  | stackerStatus => exact drawn _
  | tripStatus =>
    unfold readItem readTrip
    dsimp only
    split
    · exact ⟨_, rfl⟩
    · split
      · exact ⟨_, rfl⟩
      · exact drawn _
  | mapEntry => exact looked ..
  | order => exact looked ..
  | stand => exact looked ..
  | zone => exact looked ..
  | profile => exact looked ..
  | knifeStatus => rcases i with _ | _ | _ <;> exact ⟨_, rfl⟩
  | trigger => exact ranged ..
  | rejectSpan => exact ranged ..
  | grade => exact ranged ..
  | station => exact ranged ..
  | _ => exact ⟨_, rfl⟩

/-! ## Looking up a record -/

theorem readOr_of_some {α : Type} {found : Option α} {a : α} (there : found = some a) (r : Reason) (value : α → ItemValue)
    (s : State) : readOr r (found.map value) s = (s, .accepted (.item (value a))) := by
  subst there
  rfl

theorem readOr_of_none {α : Type} {found : Option α} (absent : found = none) (r : Reason) (value : α → ItemValue) (s : State) :
    readOr r (found.map value) s = (s, .refused r .none .none) := by
  subst absent
  rfl

/-! ## The items that count -/

/-- A window that ends. -/
def isClosedWindow : MarkKind → Bool
  | .window _ _ (.closed _) => true
  | _ => false

theorem closed_of_kind (m : Mark) : (!m.isBoundary && !m.isJoint && !m.isOpen) = isClosedWindow m.kind := by
  unfold Mark.isBoundary Mark.isJoint Mark.isOpen isClosedWindow
  cases m.kind with
  | window _ _ e => cases e <;> rfl
  | _ => rfl

theorem readMapStatus_eq (s : State) : readMapStatus s =
    .mapStatus s.sm.marks.length (countMarks s Mark.isBoundary) (countMarks s Mark.isJoint) (countMarks s Mark.isOpen)
      (s.sm.marks.filter fun m => isClosedWindow m.kind).length s.sm.nextId (largestUncertainty s) := by
  have closed : countMarks s (fun m => !m.isBoundary && !m.isJoint && !m.isOpen) =
      (s.sm.marks.filter fun m => isClosedWindow m.kind).length :=
    congrArg (fun p => (s.sm.marks.filter p).length) (funext closed_of_kind)
  rw [readMapStatus, closed]

/-- The LINE_REQUEST that a directive is (R180). -/
def requestOf (d : PlacedDirective) : Option LineRequest :=
  match d.directive with
  | .lineRequest r => some r
  | _ => none

theorem waitingRequest_eq (s : State) : waitingRequest s = (s.ri.directives.filterMap requestOf).head? :=
  List.head?_filterMap.symm

theorem readRing_eq (s : State) : readRing s =
    .ringStatus s.ri.ownAddress s.ri.frameFaults s.ri.returned s.ri.stray s.ri.malformed s.ri.overruns
      s.ri.discardedDirectives s.ri.reportsLost s.ri.directives.length (waitingSetpoints s)
      (s.ri.directives.filterMap requestOf).head? (slotFull s .supervisor) (slotFull s .panel) (slotFull s .refusal)
      s.ri.reports.length s.ri.held.length s.ri.reportNumber := by
  rw [readRing, waitingRequest_eq]

/-! ## The items with a time left (R108, R166) -/

theorem timeLeft_le (duration free : Nat) : Config.timeLeft free % (duration + 1) ≤ duration :=
  Nat.le_of_lt_succ (Nat.mod_lt _ duration.succ_pos)

theorem readStacker_of_stopped {s : State} (stopped : s.cs.stacker.timer = none) :
    readStacker s = (s, .accepted (.item (.stackerStatus s.cs.stacker s.cs.stackCounter none))) := by
  rw [readStacker, stopped]
  rfl

theorem readStacker_of_timer {s : State} {d : Nat} (timer : s.cs.stacker.timer = some d) : readStacker s =
    ({ s with freeIndex := s.freeIndex + 1 },
     .accepted (.item (.stackerStatus s.cs.stacker s.cs.stackCounter (some (Config.timeLeft s.freeIndex % (d + 1)))))) := by
  rw [readStacker, timer]
  rfl

theorem readTrip_of_placed {s : State} {n : Nat} {z : Zone} (inside : n < 16) (found : s.zr.zones[n]? = some z)
    (placed : z.placed = true) : readTrip n s =
      ((timeLeftOf (tripOf s n).timer s).1,
       .accepted (.item (.tripStatus (tripOf s n) (timeLeftOf (tripOf s n).timer s).2))) := by
  have there : ((zoneOf s n).map (·.placed)).getD false = true := by
    rw [zoneOf, found]
    exact placed
  exact (if_neg (not_le.mpr inside)).trans (if_neg (by simp [there]))

theorem readTrip_of_unplaced {s : State} {n : Nat} (inside : n < 16) (unplaced : ∀ z, s.zr.zones[n]? = some z → z.placed = false) :
    readTrip n s = (s, .refused .notFound .none .none) := by
  have gone : ((zoneOf s n).map (·.placed)).getD false = false := by
    unfold zoneOf
    cases found : s.zr.zones[n]? with
    | none => rfl
    | some z => exact unplaced z found
  exact (if_neg (not_le.mpr inside)).trans (if_pos (by simp [gone]))

/-- Settles O46: every item by its entry in `readItem`. -/
theorem readsChangeNothing : Obligations.ReadsChangeNothing := by
  have reads : ∀ {h src s t reply item i}, Reaches h src s → readItem item i s = (t, reply) →
      exec (.read h (.fields (.named item, i))) s = .next (answered h src 2 reply t) :=
    fun {_ _ _ _ _ item i} reaches rule =>
      congrArg Host.Outcome.next (receiveBody_of_rule reaches (b := .read (.named item) i) rfl rule)
  refine ⟨fun h src s reaches => ⟨?_, fun i => reads reaches rfl, fun i o found => ?_, fun i outside => ?_, fun n i => ?_,
    fun item i notFault => ?_⟩, fun h src s reaches => ?_⟩
  · exact congrArg Host.Outcome.next (receiveBody_of_rule reaches (b := .identify) rfl rfl)
  · exact reads reaches (readOr_of_some found ..)
  · exact reads reaches (readOr_of_none (List.getElem?_eq_none outside) ..)
  · exact congrArg Host.Outcome.next (receiveBody_of_rule reaches (b := .read (.beyond n) i) rfl rfl)
  · obtain ⟨free, state⟩ := readItem_state notFault i s
    exact ⟨(readItem item i s).2, free, reads reaches (Prod.ext state rfl)⟩
  · intro answers refuses answersLeft full marks feeds knife
    refine ⟨fun i => ⟨?_, ?_, ?_, ?_, ?_, ?_, ?_, ?_, ?_, ?_⟩, fun i inside => ?_, fun i outside => ?_, fun i m found => ?_,
      fun i outside => ?_, fun i inside => ?_, fun i outside => ?_, ?_, ?_, fun i outside => ?_, fun k r found => ?_,
      fun k missing => ?_, fun g inside => ?_, fun g outside => ?_, fun n z found => ?_, fun n outside => ?_,
      fun i p found => ?_, fun i outside => ?_, fun n z inside found placed => ⟨fun stopped => ?_, fun d timer => ?_⟩,
      fun n inside unplaced => ?_, fun n outside => ?_, fun i inside => ?_, fun i outside => ?_⟩
    · exact reads reaches rfl
    · exact reads reaches rfl
    · exact reads reaches (congrArg (fun v => (s, itemReply v)) (readMapStatus_eq s))
    · exact reads reaches rfl
    · exact reads reaches rfl
    · exact fun stopped => reads reaches (readStacker_of_stopped stopped)
    · exact fun d timer => ⟨_, timeLeft_le d s.freeIndex, reads reaches (readStacker_of_timer timer)⟩
    · exact reads reaches rfl
    · exact reads reaches rfl
    · exact reads reaches (congrArg (fun v => (s, itemReply v)) (readRing_eq s))
    · exact reads reaches (if_neg (not_le.mpr inside))
    · exact reads reaches (if_pos outside)
    · exact reads reaches (readOr_of_some found ..)
    · exact reads reaches (readOr_of_none (List.getElem?_eq_none outside) ..)
    · exact reads reaches (if_neg (not_le.mpr inside))
    · exact reads reaches (if_pos outside)
    · exact reads reaches rfl
    · exact reads reaches rfl
    · obtain ⟨j, rfl⟩ := Nat.exists_eq_add_of_le' outside
      exact reads reaches rfl
    · exact reads reaches (readOr_of_some found ..)
    · exact reads reaches (readOr_of_none missing ..)
    · exact reads reaches (if_neg (not_le.mpr inside))
    · exact reads reaches (if_pos outside)
    · exact reads reaches (readOr_of_some found ..)
    · exact reads reaches (readOr_of_none (List.getElem?_eq_none outside) ..)
    · exact reads reaches (readOr_of_some found ..)
    · exact reads reaches (readOr_of_none (List.getElem?_eq_none outside) ..)
    · have rule := readTrip_of_placed inside found placed
      rw [stopped] at rule
      exact reads reaches rule
    · have rule := readTrip_of_placed inside found placed
      rw [timer] at rule
      exact ⟨_, timeLeft_le d s.freeIndex, reads reaches rule⟩
    · exact reads reaches (readTrip_of_unplaced inside unplaced)
    · exact reads reaches (if_pos outside)
    · have entry : exec (.read h (.fields (.named .station, i))) s =
          .next (answered h src 2 (.accepted (.item (readStation s i))) s) := reads reaches (if_neg (not_le.mpr inside))
      refine entry.trans (congrArg (fun v => Host.Outcome.next (answered h src 2 (.accepted (.item v)) s)) ?_)
      unfold readStation
      cases (s.ri.stations[i]?).join <;> rfl
    · exact reads reaches (if_pos outside)

end Sys2Proof.Machine
end
